-- ==== Sys2Proof/Word.lean ====
section
/-! DEFINITION. Word.lean: the value types of the block (00_scope.md R5, R6) and the small enumerations the rules name.
Bit vectors hold what the spec treats as bits; everything else is an inductive type. -/

namespace Sys2Proof

/-- One byte: a character of the serial line or a byte of the Value Store (R5 `u8`). -/
abbrev Byte := BitVec 8

/-- A 32-bit value; read as `uint32` by `toNat` and as `int32` by `toInt` (R5, decision D4). -/
abbrev Word := BitVec 32

/-- The 16-bit op word W (R70). -/
abbrev OpWord := BitVec 16

/-- The integers an `int32` holds (R5). -/
abbrev FitsInt32 (z : Int) : Prop := -2147483648 ≤ z ∧ z ≤ 2147483647

/-- The two values of `direction` and `homeDirection` (R24, R31). -/
inductive Direction where
  /-- +1 -/
  | plus
  /-- -1 -/
  | minus
  deriving DecidableEq, Repr

/-- The stop mode of an axis (R30, decision D16). -/
inductive StopMode where
  /-- S_HOLD = 0: the drive stays energized while idle. -/
  | hold
  /-- S_DISABLE = 1: the drive is released at the end of a motion. -/
  | disable
  deriving DecidableEq, Repr

/-- The marker of a reply line (R260). -/
inductive Marker where
  | ack
  | error
  deriving DecidableEq, Repr

/-- The characters of a text as bytes. -/
def ascii (text : String) : List Byte := text.toList.map fun c => BitVec.ofNat 8 c.toNat

end Sys2Proof
end

