-- ==== Sys2Proof/Config.lean ====
section
/-! DEFINITION. Config.lean: what one build of the block fixes (00_scope.md R2, R3). The model takes the parameters as DATA, so
a statement over every state is a statement over every build; `Build.standard` is the one build that `State.reset` uses. -/

namespace Sys2Proof

/-- MAX_AXES (R2). -/
def maxAxes : Nat := 4

/-- The five configuration fields of an axis (R28-R32), the content of one settings record (R83). -/
structure AxisConfig where
  /-- `maxVelocity`, int32, steps per second (R28). -/
  maxVelocity   : Word
  /-- `acceleration`, int32, steps per second squared (R29). -/
  acceleration  : Word
  /-- `stopMode` (R30). -/
  stopMode      : StopMode
  /-- `homeDirection` (R31). -/
  homeDirection : Direction
  /-- `canHome` (R32). -/
  canHome       : Bool
  deriving DecidableEq, Repr

/-- The build parameters of one axis (R3, R21): INIT_*[i] and HAS_LIMIT[i]. -/
structure AxisBuild where
  /-- INIT_MAXVEL, INIT_ACCEL, INIT_STOPMODE, INIT_HOMEDIR, INIT_CANHOME of this axis. -/
  init     : AxisConfig
  /-- HAS_LIMIT of this axis: whether it has a limit-switch input (R35). -/
  hasLimit : Bool
  deriving DecidableEq, Repr

/-- The parameters of the block that are not per axis (R3). -/
structure Params where
  /-- CMD_BUF_LEN: the characters the line buffer holds. -/
  cmdBufLen      : Nat
  /-- HOME_TICK_BUDGET: the pulses allowed in each homing phase. -/
  homeTickBudget : Word
  /-- STORE_SIZE: the bytes of the external Value Store. -/
  storeSize      : Nat
  deriving DecidableEq, Repr

/-- A whole build: the block's parameters and one entry for each axis built; NUM_AXES is the number of entries. -/
structure Build where
  params : Params
  axes   : List AxisBuild
  deriving DecidableEq, Repr

/-- The ranges R3 gives for CMD_BUF_LEN, HOME_TICK_BUDGET and STORE_SIZE. -/
abbrev Params.Legal (p : Params) : Prop :=
  1 ≤ p.cmdBufLen ∧ p.homeTickBudget ≠ 0 ∧ p.storeSize ≤ 4294967295

/-- The ranges of R3, NUM_AXES among them. -/
abbrev Build.Legal (b : Build) : Prop :=
  b.params.Legal ∧ 1 ≤ b.axes.length ∧ b.axes.length ≤ maxAxes

/-- DESIGN CHOICE (log 1): the build that `State.reset` uses, the parameters of the standard start state S0 of
95_test_vectors.md. R3 leaves every one of them open. -/
def Build.standard : Build where
  params := { cmdBufLen := 16, homeTickBudget := 100, storeSize := 64 }
  axes :=
    [ { init := { maxVelocity := 500, acceleration := 1000, stopMode := .hold, homeDirection := .minus, canHome := true },
        hasLimit := true },
      { init := { maxVelocity := 10, acceleration := 10, stopMode := .disable, homeDirection := .plus, canHome := false },
        hasLimit := false } ]

end Sys2Proof
end

