-- ==== Sys2Proof/Syntax.lean ====
section
/-! DEFINITION. Syntax.lean: the block's instructions, one constructor for each row of spec/opcode_table.json, and the raw forms
in which they arrive (30_encoding.md R70, R75, R76). -/

namespace Sys2Proof

/-- The entries of the parameter table (45_command_parser.md R231). -/
inductive Param where
  | maxvel
  | accel
  | stopmode
  deriving DecidableEq, Repr

/-- The entries of the message-type table (R230). -/
inductive LineType where
  | go
  | set
  | get
  | home
  | state
  | alive
  deriving DecidableEq, Repr

/-- The instructions: 21 OP requests (R72), 6 command lines (R241-R246) and 4 events (R75). `axis` of an OP is the op word's
axis field W[7:0]; an axis of a command line is a signed 32-bit field of the Message. -/
inductive Instr where
  /-- 0x01, R105. -/
  | moveAbs (axis : BitVec 8) (target : Word)
  /-- 0x02, R106. -/
  | moveRel (axis : BitVec 8) (delta : Word)
  /-- 0x03, R110. -/
  | home (axis : BitVec 8)
  /-- 0x04, R111. -/
  | setPos (axis : BitVec 8) (p : Word)
  /-- 0x05, R113. -/
  | axisReset (axis : BitVec 8)
  /-- 0x10, R130. -/
  | getPos (axis : BitVec 8)
  /-- 0x11, R131. -/
  | busy (axis : BitVec 8)
  /-- 0x12, R132. -/
  | checkFinished (axis : BitVec 8)
  /-- 0x13, R133. -/
  | getState (axis : BitVec 8)
  /-- 0x20, R140. -/
  | getMaxvel (axis : BitVec 8)
  /-- 0x21, R141. -/
  | setMaxvel (axis : BitVec 8) (v : Word)
  /-- 0x22, R142. -/
  | getAccel (axis : BitVec 8)
  /-- 0x23, R143. -/
  | setAccel (axis : BitVec 8) (v : Word)
  /-- 0x24, R144. -/
  | getStopmode (axis : BitVec 8)
  /-- 0x25, R145. -/
  | setStopmode (axis : BitVec 8) (v : Word)
  /-- 0x26, R146. -/
  | getHomedir (axis : BitVec 8)
  /-- 0x27, R147. -/
  | getCanhome (axis : BitVec 8)
  /-- 0x30, R190. -/
  | setup (frequency : Word)
  /-- 0x31, R191. -/
  | getAxis (axis : BitVec 8)
  /-- 0x32, R192. -/
  | saveSettings (offset : Word)
  /-- 0x33, R194. -/
  | restoreSettings (offset : Word)
  /-- `GO <int> <int>`, R241. -/
  | lineGo (axis : Word) (target : Word)
  /-- `SET <int> <param> <int>`, R242. -/
  | lineSet (axis : Word) (param : Param) (value : Word)
  /-- `GET <int> <param>`, R243. -/
  | lineGet (axis : Word) (param : Param)
  /-- `HOME <int>`, R244. -/
  | lineHome (axis : Word)
  /-- `STATE <int>`, R245. -/
  | lineState (axis : Word)
  /-- `ALIVE`, R246. -/
  | lineAlive
  /-- The timer tick, R160. -/
  | tick
  /-- One byte on the serial line, R210. -/
  | rx (b : Byte)
  /-- A reply of the handler, R265. -/
  | reply (marker : Marker) (text : List Byte)
  /-- The handler gives control back, R263. -/
  | handlerDone
  deriving DecidableEq, Repr

/-- What crosses one of the block's input ports in one step (R70, R75). An OP is a whole op word and a whole operand: they have no
byte order (R52). -/
inductive PortInput where
  | op (w : OpWord) (opnd : Word)
  | tick
  | rx (b : Byte)
  | reply (marker : Marker) (text : List Byte)
  | handlerDone
  deriving DecidableEq, Repr

/-- The encoded form of an instruction: a port transfer, or a kept command line without its terminator (R76). -/
inductive Encoding where
  | port (p : PortInput)
  | line (bytes : List Byte)
  deriving DecidableEq, Repr

/-- The protocol errors (60_exceptions.md R300). -/
inductive ProtocolError where
  | unknownCommand
  | badInteger
  | unknownParameter
  | noAxis
  | badAxis
  | tooFewFields
  | tooManyFields
  | lineTooLong
  deriving DecidableEq, Repr

/-- Why the decoder rejects an encoding. -/
inductive DecodeError where
  /-- An op word whose opcode R72 does not assign (R73). -/
  | reservedOpcode (opcode : BitVec 8)
  /-- A REPLY whose text is outside the port's alphabet (R265). -/
  | replyText
  /-- A command line the parser rejects (R232). -/
  | line (e : ProtocolError)
  deriving DecidableEq, Repr

end Sys2Proof
end

