-- ==== Sys2Proof/WellFormed.lean ====
section
/-! DEFINITION. WellFormed.lean: which instruction terms some input of the block stands for. An OP may carry any axis field, in range
or not (R74 refuses an axis that is not built when the OP is executed), so only lines and replies are checked. -/

namespace Sys2Proof

/-- Printable bytes 0x20..0x7E (R76, decision D34). -/
abbrev printable (b : Byte) : Bool := decide (0x20#8 ≤ b) && decide (b ≤ 0x7E#8)

/-- A Message field, read as int32, is a valid axis index: 0 <= field < NUM_AXES (R236, decision D5). -/
abbrev validAxisField (numAxes : Nat) (field : Word) : Bool :=
  decide (0 ≤ field.toInt) && decide (field.toInt < (numAxes : Int))

/-- The checks: the axis of a SET or GET line is built (R236), and the text of a REPLY is printable (R265). -/
def Instr.wellFormed (numAxes : Nat) : Instr → Bool
  | .lineSet axis _ _ => validAxisField numAxes axis
  | .lineGet axis _   => validAxisField numAxes axis
  | .reply _ text     => text.all printable
  | .moveAbs _ _ | .moveRel _ _ | .home _ | .setPos _ _ | .axisReset _
  | .getPos _ | .busy _ | .checkFinished _ | .getState _
  | .getMaxvel _ | .setMaxvel _ _ | .getAccel _ | .setAccel _ _ | .getStopmode _ | .setStopmode _ _
  | .getHomedir _ | .getCanhome _
  | .setup _ | .getAxis _ | .saveSettings _ | .restoreSettings _
  | .lineGo _ _ | .lineHome _ | .lineState _ | .lineAlive
  | .tick | .rx _ | .handlerDone => true

end Sys2Proof
end

