-- ==== Sys2Proof/Decode.lean ====
section
/-! DEFINITION. Decode.lean: from what arrives to an instruction, total, rejecting by name; and after it the encoder. Two decoders: the op
word decoder (30_encoding.md R70-R73) and the command-line parser (45_command_parser.md R230-R237). -/

namespace Sys2Proof

/-! ### Op words -/

/-- The opcode map (R72): each assigned opcode with the instruction it makes of the axis field and OPND. An op that takes no operand
ignores OPND; the registry ops marked "-" ignore the axis field (R70). -/
def opTable : List (BitVec 8 × (BitVec 8 → Word → Instr)) :=
  [ (0x01#8, fun a v => .moveAbs a v),
    (0x02#8, fun a v => .moveRel a v),
    (0x03#8, fun a _ => .home a),
    (0x04#8, fun a v => .setPos a v),
    (0x05#8, fun a _ => .axisReset a),
    (0x10#8, fun a _ => .getPos a),
    (0x11#8, fun a _ => .busy a),
    (0x12#8, fun a _ => .checkFinished a),
    (0x13#8, fun a _ => .getState a),
    (0x20#8, fun a _ => .getMaxvel a),
    (0x21#8, fun a v => .setMaxvel a v) ] ++
  [ (0x22#8, fun a _ => .getAccel a),
    (0x23#8, fun a v => .setAccel a v),
    (0x24#8, fun a _ => .getStopmode a),
    (0x25#8, fun a v => .setStopmode a v),
    (0x26#8, fun a _ => .getHomedir a),
    (0x27#8, fun a _ => .getCanhome a),
    (0x30#8, fun _ v => .setup v),
    (0x31#8, fun a _ => .getAxis a),
    (0x32#8, fun _ v => .saveSettings v),
    (0x33#8, fun _ v => .restoreSettings v) ]

/-- W[15:8] (R70). -/
def opcodeField (w : OpWord) : BitVec 8 := w.extractLsb' 8 8

/-- W[7:0] (R70). -/
def axisField (w : OpWord) : BitVec 8 := w.extractLsb' 0 8

/-- R72, R73: the instruction of an op word, or the rejection of a reserved opcode. -/
def decodeOp (w : OpWord) (opnd : Word) : Except DecodeError Instr :=
  match opTable.find? (fun row => row.1 == opcodeField w) with
  | some row => .ok (row.2 (axisField w) opnd)
  | none     => .error (.reservedOpcode (opcodeField w))

/-- What arrives on a port (R75). A REPLY with a byte outside 0x20..0x7E is outside the port's alphabet (R265, log 11). -/
def decodePort : PortInput → Except DecodeError Instr
  | .op w opnd    => decodeOp w opnd
  | .tick         => .ok .tick
  | .rx b         => .ok (.rx b)
  | .reply m text => if text.all printable then .ok (.reply m text) else .error .replyText
  | .handlerDone  => .ok .handlerDone

/-! ### Command lines -/

/-- The kinds of value a grammar entry expects (R230). -/
inductive ValueKind where
  | integer
  | parameterName
  deriving DecidableEq, Repr

/-- One row of the message-type table. -/
structure MessageEntry where
  type    : LineType
  keyword : List Byte
  kinds   : List ValueKind
  deriving DecidableEq, Repr

/-- One row of the parameter table. -/
structure ParamEntry where
  param      : Param
  keyword    : List Byte
  axisScoped : Bool
  deriving DecidableEq, Repr

/-- The message-type table (R230), read-only (R40). -/
def messageTable : List MessageEntry :=
  [ { type := .go,    keyword := [0x47, 0x4F],                   kinds := [.integer, .integer] },
    { type := .set,   keyword := [0x53, 0x45, 0x54],             kinds := [.integer, .parameterName, .integer] },
    { type := .get,   keyword := [0x47, 0x45, 0x54],             kinds := [.integer, .parameterName] },
    { type := .home,  keyword := [0x48, 0x4F, 0x4D, 0x45],       kinds := [.integer] },
    { type := .state, keyword := [0x53, 0x54, 0x41, 0x54, 0x45], kinds := [.integer] },
    { type := .alive, keyword := [0x41, 0x4C, 0x49, 0x56, 0x45], kinds := [] } ]

/-- The parameter table (R231), read-only (R40). -/
def paramTable : List ParamEntry :=
  [ { param := .maxvel,   keyword := [0x4D, 0x41, 0x58, 0x56, 0x45, 0x4C],             axisScoped := true },
    { param := .accel,    keyword := [0x41, 0x43, 0x43, 0x45, 0x4C],                   axisScoped := true },
    { param := .stopmode, keyword := [0x53, 0x54, 0x4F, 0x50, 0x4D, 0x4F, 0x44, 0x45], axisScoped := true } ]

/-- The message-type enum: the index in R230's table, stored as `type` and `typeDefIndex`. -/
def LineType.enum : LineType → Word
  | .go => 0 | .set => 1 | .get => 2 | .home => 3 | .state => 4 | .alive => 5

/-- The parameter enum: the index in R231's table, stored in a Message field (R79). -/
def Param.enum : Param → Word
  | .maxvel => 0 | .accel => 1 | .stopmode => 2

/-- The parameter whose enum a Message field holds; the parser stores no other value there. -/
def Param.ofEnum (w : Word) : Param := if w = 0 then .maxvel else if w = 1 then .accel else .stopmode

/-- R233: the maximal runs of bytes other than 0x20, in order; `cur` is the token being read. -/
def tokenizeFrom (cur : List Byte) : List Byte → List (List Byte)
  | []      => if cur = [] then [] else [cur]
  | b :: bs =>
    if b = 0x20#8 then
      if cur = [] then tokenizeFrom [] bs else cur :: tokenizeFrom [] bs
    else tokenizeFrom (cur ++ [b]) bs

/-- R233. -/
def tokenize (line : List Byte) : List (List Byte) := tokenizeFrom [] line

/-- R234: whole-token, case-sensitive. -/
def lookupType (tok : List Byte) : Option MessageEntry := messageTable.find? (fun e => e.keyword == tok)

/-- R236: whole-token, case-sensitive. -/
def lookupParam (tok : List Byte) : Option ParamEntry := paramTable.find? (fun e => e.keyword == tok)

/-- The value of a run of decimal digits, in Z (R78); none if a byte is no digit. -/
def digitsValue (v : Nat) : List Byte → Option Nat
  | []      => some v
  | b :: bs => if 0x30#8 ≤ b ∧ b ≤ 0x39#8 then digitsValue (10 * v + (b.toNat - 48)) bs else none

/-- A value is kept only if it is an int32 (R78). -/
def narrowInt32 (z : Int) : Option Word := if FitsInt32 z then some (BitVec.ofInt 32 z) else none

/-- R235, R78: one optional `-` (0x2D), then at least one digit, with a value in int32. -/
def parseInteger (tok : List Byte) : Option Word :=
  let negative := tok.head? = some 0x2D#8
  let digits := if negative then tok.tail else tok
  if digits = [] then none
  else match digitsValue 0 digits with
    | none   => none
    | some v => narrowInt32 (if negative then -(v : Int) else (v : Int))

/-- R232's walk of the value tokens against the expected kinds, left to right; `done` holds the fields stored so far. The first
failure met is the one reported. -/
def walkValues (numAxes : Nat) : List ValueKind → List (List Byte) → List Word → Except ProtocolError (List Word)
  | [], [], done => .ok done
  | [], _ :: _, _ => .error .tooManyFields
  | _ :: _, [], _ => .error .tooFewFields
  | .integer :: kinds, tok :: toks, done =>
    match parseInteger tok with
    | none   => .error .badInteger
    | some v => walkValues numAxes kinds toks (done ++ [v])
  | .parameterName :: kinds, tok :: toks, done =>
    match lookupParam tok with
    | none   => .error .unknownParameter
    | some e =>
      if e.axisScoped then
        match done with
        | []        => .error .noAxis
        | axis :: _ =>
          if validAxisField numAxes axis then walkValues numAxes kinds toks (done ++ [e.param.enum])
          else .error .badAxis
      else walkValues numAxes kinds toks (done ++ [e.param.enum])

/-- R232 up to Accept: the type of a line and the values of its fields in token order, or the reason to reject it. -/
def parseLine (numAxes : Nat) (line : List Byte) : Except ProtocolError (LineType × List Word) :=
  match tokenize line with
  | [] => .error .unknownCommand
  | keyword :: values =>
    match lookupType keyword with
    | none   => .error .unknownCommand
    | some e =>
      match walkValues numAxes e.kinds values [] with
      | .error r   => .error r
      | .ok fields => .ok (e.type, fields)

/-- Field j of a parsed line; unused slots are zero-filled (R80). -/
def fieldAt (fields : List Word) (j : Nat) : Word := fields.getD j 0

/-- The instruction a parsed line stands for (R241-R246). -/
def lineInstr (t : LineType) (fields : List Word) : Instr :=
  match t with
  | .go    => .lineGo (fieldAt fields 0) (fieldAt fields 1)
  | .set   => .lineSet (fieldAt fields 0) (Param.ofEnum (fieldAt fields 1)) (fieldAt fields 2)
  | .get   => .lineGet (fieldAt fields 0) (Param.ofEnum (fieldAt fields 1))
  | .home  => .lineHome (fieldAt fields 0)
  | .state => .lineState (fieldAt fields 0)
  | .alive => .lineAlive

/-- A kept command line as an instruction. It needs NUM_AXES, because R236 checks the axis before the walk goes on. -/
def decodeLine (numAxes : Nat) (line : List Byte) : Except DecodeError Instr :=
  match parseLine numAxes line with
  | .error e        => .error (.line e)
  | .ok (t, fields) => .ok (lineInstr t fields)

/-- The decoder, total on every encoding. -/
def decode (numAxes : Nat) : Encoding → Except DecodeError Instr
  | .port p     => decodePort p
  | .line bytes => decodeLine numAxes bytes

/-! ### The encoder -/

/-- R70, R85: W = opcode ++ axis, with the operand. -/
def opEncoding (opcode axis : BitVec 8) (opnd : Word) : Encoding := .port (.op (opcode ++ axis) opnd)

/-- Decimal digits of a number, least significant first, at most `fuel` of them. -/
def digitsRev : Nat → Nat → List Byte
  | 0, _        => []
  | fuel + 1, n => BitVec.ofNat 8 (48 + n % 10) :: (if n / 10 = 0 then [] else digitsRev fuel (n / 10))

/-- Decimal text of a number below 10^10, with no leading zero; "0" for zero (decision D53). Every 32-bit magnitude is below 10^10. -/
def decNat (n : Nat) : List Byte := (digitsRev 10 n).reverse

/-- Decimal text of an int32 (decision D53; accepted again by R235). -/
def decInt (w : Word) : List Byte :=
  if w.toInt < 0 then 0x2D#8 :: decNat w.toInt.natAbs else decNat w.toInt.natAbs

/-- The keyword of a line type (R230). -/
def LineType.keyword (t : LineType) : List Byte :=
  match messageTable.find? (fun e => e.type == t) with
  | some e => e.keyword
  | none   => []

/-- The keyword of a parameter (R231). -/
def Param.keyword (p : Param) : List Byte :=
  match paramTable.find? (fun e => e.param == p) with
  | some e => e.keyword
  | none   => []

/-- Tokens separated by one space each (R77). -/
def joinTokens : List (List Byte) → List Byte
  | []                 => []
  | [tok]              => tok
  | tok :: next :: toks => tok ++ 0x20#8 :: joinTokens (next :: toks)

/-- A command line in its shortest spelling: single spaces, no leading zeros. -/
def lineEncoding (t : LineType) (values : List (List Byte)) : Encoding := .line (joinTokens (t.keyword :: values))

/-- The encoding of an instruction (R70, R72, R75, R77). An OP without operand has OPND 0 and a registry op without axis has axis field 0
(R85). -/
def encode : Instr → Encoding
  | .moveAbs a v        => opEncoding 0x01#8 a v
  | .moveRel a v        => opEncoding 0x02#8 a v
  | .home a             => opEncoding 0x03#8 a 0
  | .setPos a v         => opEncoding 0x04#8 a v
  | .axisReset a        => opEncoding 0x05#8 a 0
  | .getPos a           => opEncoding 0x10#8 a 0
  | .busy a             => opEncoding 0x11#8 a 0
  | .checkFinished a    => opEncoding 0x12#8 a 0
  | .getState a         => opEncoding 0x13#8 a 0
  | .getMaxvel a        => opEncoding 0x20#8 a 0
  | .setMaxvel a v      => opEncoding 0x21#8 a v
  | .getAccel a         => opEncoding 0x22#8 a 0
  | .setAccel a v       => opEncoding 0x23#8 a v
  | .getStopmode a      => opEncoding 0x24#8 a 0
  | .setStopmode a v    => opEncoding 0x25#8 a v
  | .getHomedir a       => opEncoding 0x26#8 a 0
  | .getCanhome a       => opEncoding 0x27#8 a 0
  | .setup v            => opEncoding 0x30#8 0 v
  | .getAxis a          => opEncoding 0x31#8 a 0
  | .saveSettings v     => opEncoding 0x32#8 0 v
  | .restoreSettings v  => opEncoding 0x33#8 0 v
  | .lineGo a t         => lineEncoding .go [decInt a, decInt t]
  | .lineSet a p v      => lineEncoding .set [decInt a, p.keyword, decInt v]
  | .lineGet a p        => lineEncoding .get [decInt a, p.keyword]
  | .lineHome a         => lineEncoding .home [decInt a]
  | .lineState a        => lineEncoding .state [decInt a]
  | .lineAlive          => lineEncoding .alive []
  | .tick               => .port .tick
  | .rx b               => .port (.rx b)
  | .reply m text       => .port (.reply m text)
  | .handlerDone        => .port .handlerDone

/-! ### The host's numbering -/

/-- The op request whose bits are `w`, numbered as opcode_table.json numbers them: W is bits 15..0 and OPND bits 47..16; every bit from
`nbits` up is 0 (log 10). -/
def opOfBits (nbits w : Nat) : PortInput :=
  let bits := w % 2 ^ nbits
  .op (BitVec.ofNat 16 bits) (BitVec.ofNat 32 (bits / 65536))

/-- The instruction the decoder reads from an instruction of the opcode table whose bits are `w`. -/
def decodeTableWord (nbits w : Nat) : Option Instr :=
  match decodePort (opOfBits nbits w) with
  | .ok i    => some i
  | .error _ => none

end Sys2Proof
end

