-- ==== Sys2Proof/Machine/State.lean ====
section
/-! DEFINITION. Machine/State.lean: everything the spec gives the machine, as plain data (10_state.md), the reasons a step can stop,
and the state after reset (R47, R330). -/

namespace Sys2Proof.Machine

/-- The state machine of an axis (R26). -/
inductive RunState where
  | ready
  | moving
  | finishedMoving
  | homingSeek
  | homingBackoff
  | finishedHoming
  | error
  deriving DecidableEq, Repr

/-- One axis unit: its identity (R21), run state (R22-R26), configuration (R28-R32), outputs (R34) and input level (R35). -/
structure Axis where
  /-- Immutable: INIT_*[i] and HAS_LIMIT[i] (R3, R21). -/
  build          : AxisBuild
  /-- `position`, int32 (R22). -/
  position       : Word
  /-- `stepsRemaining`, uint32 (R23). -/
  stepsRemaining : Word
  /-- `direction` (R24). -/
  direction      : Direction
  /-- `runLength`, uint32 (R25). -/
  runLength      : Word
  /-- `riseLength`, uint32 (R25). -/
  riseLength     : Word
  /-- `error`, uint32, the running remainder (R25). -/
  error          : Word
  /-- `state` (R26). -/
  state          : RunState
  /-- The five configuration fields (R28-R32). -/
  config         : AxisConfig
  /-- Output ENABLE[i], 1 = energized (R34). -/
  enable         : Bool
  /-- Output STEP[i], the line level (R34). -/
  step           : Bool
  /-- Output DIR[i] (R34). -/
  dir            : Bool
  /-- The level the environment drives on LIMIT[i] (R35). -/
  limit          : Bool
  deriving DecidableEq, Repr

/-- The Axis Registry's own state (R20). -/
structure Registry where
  configured : Bool
  /-- Ticks per second, uint32. -/
  frequency  : Word
  deriving DecidableEq, Repr

/-- A Message (R38): `type`, `typeDefIndex` and four fields, all int32. -/
structure Message where
  type         : Word
  typeDefIndex : Word
  fields       : Vector Word 4
  deriving DecidableEq, Repr

/-- The Command Interpreter (R36-R39). `P.len` is the length of `buf`. -/
structure Interpreter where
  buf         : List Byte
  discarding  : Bool
  msg         : Message
  handlerBusy : Bool
  deriving DecidableEq, Repr

/-- One step event `Step(i, d)` (R8). -/
structure StepEvent where
  axis      : Nat
  direction : Direction
  deriving DecidableEq, Repr

/-- The answer to an OP request (R44, R71). -/
structure Response where
  ok     : Bool
  result : Word
  deriving DecidableEq, Repr

/-- The observation of a run (R45), each list oldest first. -/
structure Observation where
  /-- The step event log. -/
  steps     : List StepEvent
  /-- The TX byte stream. -/
  tx        : List Byte
  /-- The Messages presented to the handler. -/
  messages  : List Message
  /-- The OP responses. -/
  responses : List Response
  deriving DecidableEq, Repr

/-- Where the reference handler stands in its program (46_reply_and_handler.md R270-R275): what its next step is. -/
inductive HandlerPhase where
  /-- It waits for a Message; its next step is the first step of the Message's program. -/
  | idle
  /-- GO: CHECK_FINISHED is next. -/
  | goCheckFinished
  /-- GO: MOVE_ABS is next. -/
  | goMoveAbs
  /-- HOME: CHECK_FINISHED is next. -/
  | homeCheckFinished
  /-- HOME: the HOME op is next. -/
  | homeHome
  /-- STATE: GET_STATE is next. -/
  | stateGetState
  /-- STATE: GET_POS is next; the state code was read. -/
  | stateGetPos (code : Word)
  /-- STATE: CHECK_FINISHED is next; the report is ready. -/
  | stateCheckFinished (code : Word) (position : Word)
  /-- REPLY is next. -/
  | sendReply (marker : Marker) (text : List Byte)
  /-- HANDLER_DONE is next. -/
  | finish
  deriving DecidableEq, Repr

/-- What an agent outside the block does next (R4, R9, R344). -/
inductive Input where
  /-- A transfer on an input port: OP, TICK, RX, REPLY or HANDLER_DONE. -/
  | port (p : PortInput)
  /-- The environment drives LIMIT[i] to a level (R35, R85). -/
  | limit (i : Nat) (level : Bool)
  /-- Power-on reset (R330). -/
  | powerOn
  /-- The reference handler takes its next step (R270-R275). -/
  | handler
  deriving DecidableEq, Repr

/-- The Value Store as the bytes listed by offset (R51): offsets strictly rising, and no entry equal to `Memory.unlisted`. -/
abbrev Memory := List Host.Cell

/-- DESIGN CHOICE (log 2): what an offset that is not listed reads as. -/
def Memory.unlisted : Byte := 0

/-- Offsets rise strictly from `low` and no listed byte is the unlisted one. -/
def Memory.wfFrom (low : Nat) : Memory → Bool
  | []            => true
  | (a, b) :: rest => decide (low ≤ a) && decide (b ≠ Memory.unlisted) && Memory.wfFrom (a + 1) rest

/-- The canonical form: equal stores are equal data. -/
def Memory.wf (m : Memory) : Bool := Memory.wfFrom 0 m

/-- The whole machine. NUM_AXES is `axes.length`. -/
structure State where
  /-- CMD_BUF_LEN, HOME_TICK_BUDGET, STORE_SIZE (R3); no step writes them. -/
  params   : Params
  /-- R20. -/
  registry : Registry
  /-- A[0], A[1], ... (R21-R35). -/
  axes     : List Axis
  /-- R36-R39. -/
  parser   : Interpreter
  /-- The external Value Store (R51). -/
  store    : Memory
  /-- R45. -/
  obs      : Observation
  /-- The reference handler's place in its program (log 13). -/
  handler  : HandlerPhase
  /-- What the agents outside the block will do, in the order they do it (log 3). -/
  inbox    : List Input
  deriving DecidableEq, Repr

/-- NUM_AXES (R3). -/
abbrev State.numAxes (s : State) : Nat := s.axes.length

/-- R302: "The block has no model fault. Every input has a defined result". No constructor: nobody raises one. -/
inductive Fault where
  deriving DecidableEq, Repr

/-- Why a step is refused. -/
inductive Refusal where
  /-- An instruction that has no meaning in this model yet; raised by an arm of `exec` only; safe. -/
  | notModelled (mnemonic : String)
  /-- The environment gave a REPLY whose text is outside the port's alphabet 0x20..0x7E, which R265 says the block never receives;
  raised when the input is delivered (log 11); safe. -/
  | replyOutsideAlphabet
  deriving DecidableEq, Repr

/-! ### Reset (10_state.md R47, 70_reset_and_hazards.md R330) -/

/-- Axis i after block reset (R47). The LIMIT level is the environment's (R330) and is handed in. -/
def Axis.resetOf (b : AxisBuild) (limit : Bool) : Axis where
  build          := b
  position       := 0
  stepsRemaining := 0
  direction      := .plus
  runLength      := 0
  riseLength     := 0
  error          := 0
  state          := .ready
  config         := b.init
  enable         := false
  step           := false
  dir            := true
  limit          := limit

/-- The Message register at reset: all fields 0 (R47). -/
def Message.zero : Message where
  type         := 0
  typeDefIndex := 0
  fields       := #v[0, 0, 0, 0]

/-- The Interpreter at reset (R47). -/
def Interpreter.reset : Interpreter where
  buf         := []
  discarding  := false
  msg         := Message.zero
  handlerBusy := false

/-- Empty logs (R47; log 7). -/
def Observation.empty : Observation where
  steps     := []
  tx        := []
  messages  := []
  responses := []

/-- ResetState (R333) of a build, with nothing pending, every LIMIT released (log 6) and nothing listed in the store (log 2). -/
def State.resetOf (b : Build) : State where
  params   := b.params
  registry := { configured := false, frequency := 0 }
  axes     := b.axes.map fun a => Axis.resetOf a false
  parser   := Interpreter.reset
  store    := []
  obs      := Observation.empty
  handler  := .idle
  inbox    := []

/-- The machine right after reset, for the standard build (log 1). -/
def State.reset : State := State.resetOf Build.standard

end Sys2Proof.Machine
end

