-- ==== Sys2Proof/Machine/Flags.lean ====
section
/-! DEFINITION. Machine/Flags.lean: the derived flags (10_state.md R42, R43) and the numeric codes visible in results (R26, R30, R31). -/

namespace Sys2Proof.Machine

/-- `busy` of a state (R42): Moving, HomingSeek or HomingBackoff. -/
def RunState.busy : RunState → Bool
  | .moving | .homingSeek | .homingBackoff => true
  | .ready | .finishedMoving | .finishedHoming | .error => false

/-- The finished latch of a state (R43): FinishedMoving or FinishedHoming. -/
def RunState.finished : RunState → Bool
  | .finishedMoving | .finishedHoming => true
  | .ready | .moving | .homingSeek | .homingBackoff | .error => false

/-- The state codes (R26, decision D6). -/
def RunState.code : RunState → Word
  | .ready => 0 | .moving => 1 | .finishedMoving => 2 | .homingSeek => 3 | .homingBackoff => 4 | .finishedHoming => 5 | .error => 6

/-- A boolean result is 0 or 1 (R71). -/
def boolWord (b : Bool) : Word := if b then 1 else 0

/-- S_HOLD = 0, S_DISABLE = 1 (R30). -/
def stopModeWord : StopMode → Word
  | .hold => 0
  | .disable => 1

/-- +1 or -1 as an integer (R24). -/
def directionInt : Direction → Int
  | .plus => 1
  | .minus => -1

/-- +1 or -1 as an int32 bit pattern (R71, R146). -/
def directionWord (d : Direction) : Word := BitVec.ofInt 32 (directionInt d)

/-- The opposite direction (R167). -/
def reverseDirection : Direction → Direction
  | .plus => .minus
  | .minus => .plus

/-- The level of DIR for a direction (R24, decision D14). -/
def dirLevel : Direction → Bool
  | .plus => true
  | .minus => false

/-- Some axis is busy (R194). -/
def anyBusy (axes : List Axis) : Bool := axes.any fun a => a.state.busy

end Sys2Proof.Machine
end

