-- ==== Sys2Proof/Machine/Operands.lean ====
section
/-! DEFINITION. Machine/Operands.lean: the operand forms: the axis field (R74), signed and unsigned OPND (R70), the bytes of a settings
record (R6 `le32`, R83, R193). -/

namespace Sys2Proof.Machine

/-- The stop mode an OPND names (R145): v must be 0 or 1. -/
def stopModeOfWord (v : Word) : Option StopMode :=
  if v = 0 then some .hold else if v = 1 then some .disable else none

/-- `le32` (R6): four bytes, least significant first (R52; decision D29, general knowledge G2). -/
def le32 (v : Word) : List Byte :=
  [v.extractLsb' 0 8, v.extractLsb' 8 8, v.extractLsb' 16 8, v.extractLsb' 24 8]

/-- `le32_inv` (R6): b3:b2:b1:b0. -/
def le32Inv (b0 b1 b2 b3 : Byte) : Word := b3 ++ b2 ++ b1 ++ b0

/-- The bytes of one settings record, 11 of them (R83). -/
def recordBytes : Nat := 11

/-- Byte 8 of a record (R83). -/
def stopModeByte : StopMode → Byte
  | .hold => 0
  | .disable => 1

/-- Byte 9 of a record (R83). -/
def directionByte : Direction → Byte
  | .plus => 0
  | .minus => 1

/-- Byte 10 of a record (R83). -/
def flagByte (b : Bool) : Byte := if b then 1 else 0

/-- One record (R83, R192). -/
def encodeRecord (c : AxisConfig) : List Byte :=
  le32 c.maxVelocity ++ le32 c.acceleration ++
    [stopModeByte c.stopMode, directionByte c.homeDirection, flagByte c.canHome]

/-- R193, total on all byte values; `byte k` is byte k of the record. -/
def decodeRecord (byte : Nat → Byte) : AxisConfig where
  maxVelocity   := le32Inv (byte 0) (byte 1) (byte 2) (byte 3)
  acceleration  := le32Inv (byte 4) (byte 5) (byte 6) (byte 7)
  stopMode      := if byte 8 = 0 then .hold else .disable
  homeDirection := if byte 9 = 0 then .plus else .minus
  canHome       := decide (byte 10 ≠ 0)

end Sys2Proof.Machine
end

