-- ==== Sys2Proof/Machine/Ops.lean ====
section
/-! DEFINITION. Machine/Ops.lean: the shared operations: the Value Store, OP responses, axis operations, outputs, the runtime fault
(EnterError, the block's only "exception") and its return, replies, the hand-off of a Message, and block reset. -/

namespace Sys2Proof.Machine

/-- What one step of this machine answers. -/
abbrev Result := Host.Outcome State Fault Refusal

/-! ### The Value Store (20_memory.md R51, R55, R56) -/

/-- The byte at an offset. -/
def Memory.read : Memory → Nat → Byte
  | [], _ => Memory.unlisted
  | (k, b) :: rest, a => if k = a then b else Memory.read rest a

/-- A byte put before the offsets of `rest`, listed only if it is not what an unlisted offset reads as. -/
def Memory.cons (a : Nat) (b : Byte) (rest : Memory) : Memory := if b = Memory.unlisted then rest else (a, b) :: rest

/-- One byte written, the canonical form kept. -/
def Memory.write : Memory → Nat → Byte → Memory
  | [], a, b => Memory.cons a b []
  | (k, c) :: rest, a, b =>
    if a < k then Memory.cons a b ((k, c) :: rest)
    else if a = k then Memory.cons a b rest
    else (k, c) :: Memory.write rest a b

/-- `StoreWrite(off, bytes)` (R8). -/
def Memory.writeBytes (m : Memory) (off : Nat) : List Byte → Memory
  | []      => m
  | b :: bs => Memory.writeBytes (m.write off b) (off + 1) bs

/-! ### OP responses (30_encoding.md R71) -/

/-- The answer to an OP request: ok and RESULT, on the response port. -/
def State.respond (s : State) (ok : Bool) (result : Word) : State :=
  { s with obs := { s.obs with responses := s.obs.responses ++ [{ ok := ok, result := result }] } }

/-- `fail()` (R8): ok = 0, RESULT = 0, nothing else changes. -/
def failOp (s : State) : Result := .next (s.respond false 0)

/-- `succeed(v)` (R8). -/
def succeedOp (s : State) (v : Word) : Result := .next (s.respond true v)

/-! ### Axis operations (R74) -/

/-- A[i] replaced. -/
def State.setAxis (s : State) (i : Nat) (a : Axis) : State := { s with axes := s.axes.set i a }

/-- The axis decode of R74 around an operation on one axis, which answers none to fail and otherwise the axis it leaves and
RESULT. -/
def axisOp (axis : BitVec 8) (f : Axis → Option (Axis × Word)) (s : State) : Result :=
  match s.axes[axis.toNat]? with
  | none   => failOp s
  | some a =>
    match f a with
    | none         => failOp s
    | some (b, v) => succeedOp (s.setAxis axis.toNat b) v

/-- `setDir(i, d)` (R8): direction and DIR together. -/
def Axis.setDir (a : Axis) (d : Direction) : Axis := { a with direction := d, dir := dirLevel d }

/-- The STEP line inverted once (R8 `pulse`; the step event is logged by the tick). -/
def Axis.toggleStep (a : Axis) : Axis := { a with step := !a.step }

/-- `readLimit(i)` (R8, R35): an axis without a limit switch reads 0. -/
def Axis.readLimit (a : Axis) : Bool := a.build.hasLimit && a.limit

/-- `position + direction` at 32 bits. Homing wraps (R169, decision D21); a move never leaves int32 in a state a run reaches (R163;
log 12). -/
def Axis.advance (a : Axis) : Axis := { a with position := a.position + directionWord a.direction }

/-- `EndOfMotion(i)` (R165). -/
def Axis.endOfMotion (a : Axis) : Axis :=
  match a.config.stopMode with
  | .disable => { a with enable := false }
  | .hold    => a

/-- `EnterError(i)` (R166): the block's one runtime fault. It saves nothing and has no vector (60_exceptions.md R306). -/
def Axis.enterError (a : Axis) : Axis :=
  Axis.endOfMotion { a with state := .error, stepsRemaining := 0 }

/-- The way out of Error (40_axis_motion.md R113): the run state to its reset values, configuration, ENABLE and STEP kept. -/
def Axis.leaveError (a : Axis) : Axis :=
  Axis.setDir
    { a with state := .ready, position := 0, stepsRemaining := 0, runLength := 0, riseLength := 0, error := 0 } .plus

/-! ### TX and replies (46_reply_and_handler.md R260) -/

/-- `tx(bytes)` (R8). -/
def State.tx (s : State) (bytes : List Byte) : State := { s with obs := { s.obs with tx := s.obs.tx ++ bytes } }

/-- The bytes of a marker (R260). -/
def markerBytes : Marker → List Byte
  | .ack   => [0x41, 0x43, 0x4B]
  | .error => [0x45, 0x52, 0x52, 0x4F, 0x52]

/-- A framed reply line (R260, decision D44). -/
def replyBytes (m : Marker) (text : List Byte) : List Byte :=
  markerBytes m ++ (if text = [] then [] else 0x20#8 :: text) ++ [0x0D, 0x0A]

/-- `reply(marker, text)` (R260). -/
def State.reply (s : State) (m : Marker) (text : List Byte) : State := s.tx (replyBytes m text)

/-- The reason strings (60_exceptions.md R300, decision D43). -/
def errorText : ProtocolError → List Byte
  | .unknownCommand   => ascii "UNKNOWN COMMAND"
  | .badInteger       => ascii "BAD INTEGER"
  | .unknownParameter => ascii "UNKNOWN PARAMETER"
  | .noAxis           => ascii "NO AXIS"
  | .badAxis          => ascii "BAD AXIS"
  | .tooFewFields     => ascii "TOO FEW FIELDS"
  | .tooManyFields    => ascii "TOO MANY FIELDS"
  | .lineTooLong      => ascii "LINE TOO LONG"

/-- `ParseFail(reason)` (45_command_parser.md R239); also the reply of an overflow (R213). -/
def State.protocolError (s : State) (e : ProtocolError) : State := s.reply .error (errorText e)

/-! ### The hand-off of a Message (R238, R262) -/

/-- `present(msg)` (R262): the handler becomes busy and sees the Message; the reference handler begins its program. -/
def State.present (s : State) (m : Message) : State :=
  { s with
    parser  := { s.parser with handlerBusy := true }
    obs     := { s.obs with messages := s.obs.messages ++ [m] }
    handler := .idle }

/-- `Accept(t, f)` (R238): every field of the Message register is rewritten, then it is presented. -/
def State.accept (s : State) (t : LineType) (fields : Vector Word 4) : State :=
  let m : Message := { type := t.enum, typeDefIndex := t.enum, fields := fields }
  State.present { s with parser := { s.parser with msg := m } } m

/-! ### The environment (R35, R330) -/

/-- LIMIT[i] driven to a level; an axis that is not built has no such input. -/
def State.driveLimit (s : State) (i : Nat) (level : Bool) : State :=
  match s.axes[i]? with
  | none   => s
  | some a => s.setAxis i { a with limit := level }

/-- Block reset (R330): every field to the value of R47. The Value Store, the LIMIT levels and what the environment still holds
survive; the reference handler starts again (log 8). -/
def State.powerOn (s : State) : State :=
  { s with
    registry := { configured := false, frequency := 0 }
    axes     := s.axes.map fun a => Axis.resetOf a.build a.limit
    parser   := Interpreter.reset
    obs      := Observation.empty
    handler  := .idle }

end Sys2Proof.Machine
end

