-- ==== Sys2Proof/Machine/Access.lean ====
section
/-! DEFINITION. Machine/Access.lean: the axis queries and configuration access (41_axis_access.md R130-R148). -/

namespace Sys2Proof.Machine

/-- An operation that reads one value of the addressed axis and writes nothing. -/
def readOp (axis : BitVec 8) (read : Axis → Word) (s : State) : Result :=
  axisOp axis (fun a => some (a, read a)) s

/-- An operation that writes one configuration field; it fails while the axis is busy and for a value `write` refuses. -/
def configOp (axis : BitVec 8) (write : AxisConfig → Option AxisConfig) (s : State) : Result :=
  axisOp axis (fun a =>
    if a.state.busy then none
    else match write a.config with
      | none   => none
      | some c => some ({ a with config := c }, 0)) s

/-- GET_POS (R130). -/
def execGetPos (axis : BitVec 8) (s : State) : Result := readOp axis (fun a => a.position) s

/-- BUSY (R131). -/
def execBusy (axis : BitVec 8) (s : State) : Result := readOp axis (fun a => boolWord a.state.busy) s

/-- CHECK_FINISHED (R132): the atomic test-and-clear of the finished latch. -/
def execCheckFinished (axis : BitVec 8) (s : State) : Result :=
  axisOp axis (fun a => if a.state.finished then some ({ a with state := .ready }, 1) else some (a, 0)) s

/-- GET_STATE (R133). -/
def execGetState (axis : BitVec 8) (s : State) : Result := readOp axis (fun a => a.state.code) s

/-- GET_MAXVEL (R140). -/
def execGetMaxvel (axis : BitVec 8) (s : State) : Result := readOp axis (fun a => a.config.maxVelocity) s

/-- SET_MAXVEL (R141): v must be positive as int32. -/
def execSetMaxvel (axis : BitVec 8) (v : Word) (s : State) : Result :=
  configOp axis (fun c => if v.toInt ≤ 0 then none else some { c with maxVelocity := v }) s

/-- GET_ACCEL (R142). -/
def execGetAccel (axis : BitVec 8) (s : State) : Result := readOp axis (fun a => a.config.acceleration) s

/-- SET_ACCEL (R143): v must be positive as int32. -/
def execSetAccel (axis : BitVec 8) (v : Word) (s : State) : Result :=
  configOp axis (fun c => if v.toInt ≤ 0 then none else some { c with acceleration := v }) s

/-- GET_STOPMODE (R144). -/
def execGetStopmode (axis : BitVec 8) (s : State) : Result := readOp axis (fun a => stopModeWord a.config.stopMode) s

/-- SET_STOPMODE (R145): v must be 0 or 1; ENABLE is not touched. -/
def execSetStopmode (axis : BitVec 8) (v : Word) (s : State) : Result :=
  configOp axis (fun c =>
    match stopModeOfWord v with
    | none   => none
    | some m => some { c with stopMode := m }) s

/-- GET_HOMEDIR (R146). -/
def execGetHomedir (axis : BitVec 8) (s : State) : Result := readOp axis (fun a => directionWord a.config.homeDirection) s

/-- GET_CANHOME (R147). -/
def execGetCanhome (axis : BitVec 8) (s : State) : Result := readOp axis (fun a => boolWord a.config.canHome) s

end Sys2Proof.Machine
end

