-- ==== Sys2Proof/Machine/HandlerPort.lean ====
section
/-! DEFINITION. Machine/HandlerPort.lean: the handler's two events (46_reply_and_handler.md R263, R265). Each has an effect only while a
Message is with the handler (decision D51). -/

namespace Sys2Proof.Machine

/-- REPLY (R265). -/
def execReply (m : Marker) (text : List Byte) (s : State) : Result :=
  if s.parser.handlerBusy then .next (s.reply m text) else .next s

/-- HANDLER_DONE (R263). -/
def execHandlerDone (s : State) : Result :=
  if s.parser.handlerBusy then .next { s with parser := { s.parser with handlerBusy := false } } else .next s

end Sys2Proof.Machine
end

