-- ==== Sys2Proof/Machine/Line.lean ====
section
/-! DEFINITION. Machine/Line.lean: the command lines (45_command_parser.md R232-R246) and the byte accumulator that receives them
(44_line_input.md R210-R216). A line is executed in the RX step of its terminator. -/

namespace Sys2Proof.Machine

/-- No line is taken while a Message is with the handler (R210, 20_memory.md R62): the line waits at its source (log 9). -/
def whenHandlerIdle (s : State) (t : State) : Result := if s.parser.handlerBusy then .next s else .next t

/-- GO (R241): Accept(0, [axis, target, 0, 0]); the parser does not check the axis. -/
def execLineGo (axis target : Word) (s : State) : Result :=
  whenHandlerIdle s (s.accept .go #v[axis, target, 0, 0])

/-- SET (R242, R236): Accept(1, [axis, enum, value, 0]), or BAD AXIS. -/
def execLineSet (axis : Word) (param : Param) (value : Word) (s : State) : Result :=
  whenHandlerIdle s
    (if validAxisField s.numAxes axis then s.accept .set #v[axis, param.enum, value, 0] else s.protocolError .badAxis)

/-- GET (R243, R236): Accept(2, [axis, enum, 0, 0]), or BAD AXIS. -/
def execLineGet (axis : Word) (param : Param) (s : State) : Result :=
  whenHandlerIdle s
    (if validAxisField s.numAxes axis then s.accept .get #v[axis, param.enum, 0, 0] else s.protocolError .badAxis)

/-- HOME (R244): Accept(3, [axis, 0, 0, 0]). -/
def execLineHome (axis : Word) (s : State) : Result :=
  whenHandlerIdle s (s.accept .home #v[axis, 0, 0, 0])

/-- STATE (R245): Accept(4, [axis, 0, 0, 0]). -/
def execLineState (axis : Word) (s : State) : Result :=
  whenHandlerIdle s (s.accept .state #v[axis, 0, 0, 0])

/-- ALIVE (R246): Accept(5, [0, 0, 0, 0]). -/
def execLineAlive (s : State) : Result :=
  whenHandlerIdle s (s.accept .alive #v[0, 0, 0, 0])

/-- The line's instruction executed: the six line forms. -/
def runLine (t : LineType) (fields : List Word) (s : State) : Result :=
  match t with
  | .go    => execLineGo (fieldAt fields 0) (fieldAt fields 1) s
  | .set   => execLineSet (fieldAt fields 0) (Param.ofEnum (fieldAt fields 1)) (fieldAt fields 2) s
  | .get   => execLineGet (fieldAt fields 0) (Param.ofEnum (fieldAt fields 1)) s
  | .home  => execLineHome (fieldAt fields 0) s
  | .state => execLineState (fieldAt fields 0) s
  | .alive => execLineAlive s

/-- `ProcessCommand(line)` (R232). -/
def processCommand (line : List Byte) (s : State) : Result :=
  match parseLine s.numAxes line with
  | .error e        => .next (s.protocolError e)
  | .ok (t, fields) => runLine t fields s

/-- `P.len <- 0` (R212). -/
def State.emptyBuffer (s : State) : State := { s with parser := { s.parser with buf := [] } }

/-- `Terminator()` (R212, R214, R216). -/
def terminator (s : State) : Result :=
  if s.parser.discarding then .next { s with parser := { s.parser with discarding := false } }
  else if s.parser.buf = [] then .next s
  else processCommand s.parser.buf s.emptyBuffer

/-- `Overflow()` (R213). -/
def State.overflow (s : State) : State :=
  State.protocolError { s with parser := { s.parser with buf := [], discarding := true } } .lineTooLong

/-- `Printable(b)` (R211). -/
def printableByte (b : Byte) (s : State) : Result :=
  if s.parser.discarding then .next s
  else if s.params.cmdBufLen ≤ s.parser.buf.length then .next s.overflow
  else .next { s with parser := { s.parser with buf := s.parser.buf ++ [b] } }

/-- CR or LF (R212, decision D34). -/
def isTerminator (b : Byte) : Bool := b == 0x0D#8 || b == 0x0A#8

/-- RX (R210). While a Message is with the handler the step does not occur: nothing changes and the byte stays at its source
(log 4). -/
def execRx (b : Byte) (s : State) : Result :=
  if s.parser.handlerBusy then .next s
  else if isTerminator b then terminator s
  else if printable b then printableByte b s
  else .next s

end Sys2Proof.Machine
end

