-- ==== Sys2Proof/Machine/Profile.lean ====
section
/-! DEFINITION. Machine/Profile.lean: the profile calculation of a move (40_axis_motion.md R101-R103), exact in Z. The kinematics are
general knowledge of the spec (G1), the rounding its decision D10. -/

namespace Sys2Proof.Machine

/-- `ceil(a / b)` for b > 0 (R5). -/
def ceilDiv (a b : Nat) : Nat := (a + b - 1) / b

/-- The greatest m = low + (a sum of distinct powers of two below 2^bits) with m*m*A < x, found from the highest bit down. -/
def greatestBelow (A x : Nat) : Nat → Nat → Nat
  | 0, low        => low
  | bits + 1, low =>
    let m := low + 2 ^ bits
    if m * m * A < x then greatestBelow A x bits m else greatestBelow A x bits low

/-- The least n >= 0 with n*n*A >= x (R102, triangle). -/
def leastSquare (A x : Nat) : Nat :=
  if x = 0 then 0 else greatestBelow A x (x.log2 + 1) 0 + 1

/-- `ProfileTicks(D, V, A, F)` (R102). -/
def profileTicks (D V A F : Nat) : Nat :=
  if V * V ≤ A * D then ceilDiv (F * (A * D + V * V)) (A * V)
  else leastSquare A (4 * F * F * D)

/-- R103: `riseLength = max(ticks, D)`. -/
def riseTicks (D V A F : Nat) : Nat := max (profileTicks D V A F) D

end Sys2Proof.Machine
end

