-- ==== Sys2Proof/Machine/Motion.lean ====
section
/-! DEFINITION. Machine/Motion.lean: the axis motion operations MOVE_ABS, MOVE_REL, HOME, SET_POS and AXIS_RESET
(40_axis_motion.md R100-R113). -/

namespace Sys2Proof.Machine

/-- `Commit(a, delta, D, rise)` (R104). -/
def Axis.commit (a : Axis) (delta : Int) (D rise : Nat) : Axis :=
  { a.setDir (if 0 < delta then .plus else .minus) with
    runLength      := BitVec.ofNat 32 D
    riseLength     := BitVec.ofNat 32 rise
    error          := 0
    stepsRemaining := BitVec.ofNat 32 D
    enable         := true
    state          := .moving }

/-- `StartMove(a, target)` (R100). -/
def Axis.startMove (r : Registry) (target : Int) (a : Axis) : Option (Axis × Word) :=
  if a.state ≠ .ready then none
  else if r.configured = false then none
  else
    let delta := target - a.position.toInt
    if delta = 0 then none
    else
      let D := delta.natAbs
      let V := a.config.maxVelocity.toInt
      let A := a.config.acceleration.toInt
      if V ≤ 0 ∨ A ≤ 0 then none
      else
        let rise := riseTicks D V.toNat A.toNat r.frequency.toNat
        if 4294967295 < rise then none
        else some (a.commit delta D rise, BitVec.ofNat 32 rise)

/-- R106: the target must stay in int32 (decision D18). -/
def Axis.startRelative (r : Registry) (delta : Int) (a : Axis) : Option (Axis × Word) :=
  let target := a.position.toInt + delta
  if FitsInt32 target then a.startMove r target else none

/-- R110. -/
def Axis.startHoming (p : Params) (r : Registry) (a : Axis) : Option (Axis × Word) :=
  if a.state ≠ .ready then none
  else if a.config.canHome = false then none
  else if r.configured = false then none
  else
    some ({ a.setDir a.config.homeDirection with
            stepsRemaining := p.homeTickBudget
            enable         := true
            state          := .homingSeek }, 0)

/-- R111. -/
def Axis.setPosition (p : Word) (a : Axis) : Option (Axis × Word) :=
  if a.state ≠ .ready then none else some ({ a with position := p }, 0)

/-- R113. -/
def Axis.resetFromError (a : Axis) : Option (Axis × Word) :=
  if a.state ≠ .error then none else some (a.leaveError, 0)

/-- MOVE_ABS (R105). -/
def execMoveAbs (axis : BitVec 8) (target : Word) (s : State) : Result :=
  axisOp axis (Axis.startMove s.registry target.toInt) s

/-- MOVE_REL (R106). -/
def execMoveRel (axis : BitVec 8) (delta : Word) (s : State) : Result :=
  axisOp axis (Axis.startRelative s.registry delta.toInt) s

/-- HOME (R110). -/
def execHome (axis : BitVec 8) (s : State) : Result :=
  axisOp axis (Axis.startHoming s.params s.registry) s

/-- SET_POS (R111). -/
def execSetPos (axis : BitVec 8) (p : Word) (s : State) : Result :=
  axisOp axis (Axis.setPosition p) s

/-- AXIS_RESET (R113). -/
def execAxisReset (axis : BitVec 8) (s : State) : Result :=
  axisOp axis Axis.resetFromError s

end Sys2Proof.Machine
end

