-- ==== Sys2Proof/Machine/RegistryOps.lean ====
section
/-! DEFINITION. Machine/RegistryOps.lean: the Axis Registry operations SETUP, GET_AXIS, SAVE_SETTINGS and RESTORE_SETTINGS
(43_registry.md R190-R194). -/

namespace Sys2Proof.Machine

/-- The bytes of the settings block: 11 * NUM_AXES (R192). -/
def State.settingsBytes (s : State) : Nat := recordBytes * s.numAxes

/-- The settings block of all axes, in registration order (R192, R83). -/
def encodeSettings : List Axis → List Byte
  | []        => []
  | a :: rest => encodeRecord a.config ++ encodeSettings rest

/-- The axes with their configuration read from the records that begin at `off` (R194). -/
def restoreAxes (m : Memory) (off : Nat) : List Axis → List Axis
  | []        => []
  | a :: rest => { a with config := decodeRecord fun k => m.read (off + k) } :: restoreAxes m (off + recordBytes) rest

/-- SETUP (R190): accepted once, with a frequency that is not 0. -/
def execSetup (frequency : Word) (s : State) : Result :=
  if s.registry.configured then failOp s
  else if frequency = 0 then failOp s
  else succeedOp { s with registry := { configured := true, frequency := frequency } } 0

/-- GET_AXIS (R191): the range check alone. -/
def execGetAxis (axis : BitVec 8) (s : State) : Result := axisOp axis (fun a => some (a, 0)) s

/-- SAVE_SETTINGS (R192); the bound is tested in Z. -/
def execSaveSettings (offset : Word) (s : State) : Result :=
  if s.params.storeSize < offset.toNat + s.settingsBytes then failOp s
  else
    succeedOp { s with store := s.store.writeBytes offset.toNat (encodeSettings s.axes) }
      (BitVec.ofNat 32 (offset.toNat + s.settingsBytes))

/-- RESTORE_SETTINGS (R194). -/
def execRestoreSettings (offset : Word) (s : State) : Result :=
  if anyBusy s.axes then failOp s
  else if s.params.storeSize < offset.toNat + s.settingsBytes then failOp s
  else
    succeedOp { s with axes := restoreAxes s.store offset.toNat s.axes }
      (BitVec.ofNat 32 (offset.toNat + s.settingsBytes))

end Sys2Proof.Machine
end

