-- ==== Sys2Proof/Machine/Tick.lean ====
section
/-! DEFINITION. Machine/Tick.lean: the timer tick and pulse generation (42_tick.md R160-R169). A tick procedure answers the axis it
leaves and the direction of the pulse it emitted, if it emitted one. -/

namespace Sys2Proof.Machine

/-- `FinishMove(i)` (R162). -/
def Axis.finishMove (a : Axis) : Axis := Axis.endOfMotion { a with state := .finishedMoving }

/-- The invariant check of a moving axis (R161, R166): riseLength = 0, stepsRemaining = 0 or runLength > riseLength. -/
def Axis.moveBroken (a : Axis) : Bool :=
  a.riseLength == 0 || a.stepsRemaining == 0 || decide (a.riseLength.toNat < a.runLength.toNat)

/-- The pulse of a move (R161): the remainder it leaves, STEP inverted, position and count; the last one finishes the move (R162). -/
def Axis.movePulse (a : Axis) (remainder : Nat) : Axis :=
  let b := { a.toggleStep.advance with
             error          := BitVec.ofNat 32 remainder
             stepsRemaining := a.stepsRemaining - 1 }
  if b.stepsRemaining = 0 then b.finishMove else b

/-- `MovingTick(i)` (R161); the sum is formed in Z. -/
def Axis.movingTick (a : Axis) : Axis × Option Direction :=
  let sum := a.error.toNat + a.runLength.toNat
  if a.moveBroken then (a.enterError, none)
  else if a.riseLength.toNat ≤ sum then (a.movePulse (sum - a.riseLength.toNat), some a.direction)
  else ({ a with error := BitVec.ofNat 32 sum }, none)

/-- The pulse of either homing phase (R169) with the countdown of its budget; the last one enters Error (R167, R168). -/
def Axis.homePulse (a : Axis) : Axis × Option Direction :=
  let b := { a.toggleStep.advance with stepsRemaining := a.stepsRemaining - 1 }
  (if b.stepsRemaining = 0 then b.enterError else b, some a.direction)

/-- `SeekTick(i)` (R167): the limit is sampled before any pulse. -/
def Axis.seekTick (budget : Word) (a : Axis) : Axis × Option Direction :=
  if a.stepsRemaining = 0 then (a.enterError, none)
  else if a.readLimit then
    ({ a.setDir (reverseDirection a.direction) with stepsRemaining := budget, state := .homingBackoff }, none)
  else a.homePulse

/-- `BackoffTick(i)` (R168). -/
def Axis.backoffTick (a : Axis) : Axis × Option Direction :=
  if a.stepsRemaining = 0 then (a.enterError, none)
  else if a.readLimit = false then
    (Axis.endOfMotion { a with position := 0, stepsRemaining := 0, state := .finishedHoming }, none)
  else a.homePulse

/-- The call of R160 for one axis. -/
def Axis.tick (budget : Word) (a : Axis) : Axis × Option Direction :=
  match a.state with
  | .moving         => a.movingTick
  | .homingSeek     => a.seekTick budget
  | .homingBackoff  => a.backoffTick
  | .ready          => (a, none)
  | .finishedMoving => (a, none)
  | .finishedHoming => (a, none)
  | .error          => (a, none)

/-- The step event of axis i's pulse (R8). -/
def stepEvents (i : Nat) : Option Direction → List StepEvent
  | none   => []
  | some d => [{ axis := i, direction := d }]

/-- The axes after one fan-out (R160). -/
def tickAxes (budget : Word) (axes : List Axis) : List Axis := axes.map fun a => (a.tick budget).1

/-- The step events of one fan-out, in ascending axis index from `i` (R160, decision D28). -/
def tickEvents (budget : Word) : Nat → List Axis → List StepEvent
  | _, []        => []
  | i, a :: rest => stepEvents i (a.tick budget).2 ++ tickEvents budget (i + 1) rest

/-- TICK (R160): no effect until the block is configured. -/
def execTick (s : State) : Result :=
  if s.registry.configured = false then .next s
  else
    .next { s with
      axes := tickAxes s.params.homeTickBudget s.axes
      obs  := { s.obs with steps := s.obs.steps ++ tickEvents s.params.homeTickBudget 0 s.axes } }

end Sys2Proof.Machine
end

