-- ==== Sys2Proof/Machine/Dispatch.lean ====
section
/-! DEFINITION. Machine/Dispatch.lean: one arm per instruction. -/

namespace Sys2Proof.Machine

/-- The meaning of every instruction. -/
def exec (i : Instr) (s : State) : Host.Outcome State Fault Refusal :=
  match i with
  | .moveAbs axis target => Sys2Proof.Machine.execMoveAbs axis target s
  | .moveRel axis delta => Sys2Proof.Machine.execMoveRel axis delta s
  | .home axis => Sys2Proof.Machine.execHome axis s
  | .setPos axis p => Sys2Proof.Machine.execSetPos axis p s
  | .axisReset axis => Sys2Proof.Machine.execAxisReset axis s
  | .getPos axis => Sys2Proof.Machine.execGetPos axis s
  | .busy axis => Sys2Proof.Machine.execBusy axis s
  | .checkFinished axis => Sys2Proof.Machine.execCheckFinished axis s
  | .getState axis => Sys2Proof.Machine.execGetState axis s
  | .getMaxvel axis => Sys2Proof.Machine.execGetMaxvel axis s
  | .setMaxvel axis v => Sys2Proof.Machine.execSetMaxvel axis v s
  | .getAccel axis => Sys2Proof.Machine.execGetAccel axis s
  | .setAccel axis v => Sys2Proof.Machine.execSetAccel axis v s
  | .getStopmode axis => Sys2Proof.Machine.execGetStopmode axis s
  | .setStopmode axis v => Sys2Proof.Machine.execSetStopmode axis v s
  | .getHomedir axis => Sys2Proof.Machine.execGetHomedir axis s
  | .getCanhome axis => Sys2Proof.Machine.execGetCanhome axis s
  | .setup frequency => Sys2Proof.Machine.execSetup frequency s
  | .getAxis axis => Sys2Proof.Machine.execGetAxis axis s
  | .saveSettings offset => Sys2Proof.Machine.execSaveSettings offset s
  | .restoreSettings offset => Sys2Proof.Machine.execRestoreSettings offset s
  | .lineGo axis target => Sys2Proof.Machine.execLineGo axis target s
  | .lineSet axis param value => Sys2Proof.Machine.execLineSet axis param value s
  | .lineGet axis param => Sys2Proof.Machine.execLineGet axis param s
  | .lineHome axis => Sys2Proof.Machine.execLineHome axis s
  | .lineState axis => Sys2Proof.Machine.execLineState axis s
  | .lineAlive => Sys2Proof.Machine.execLineAlive s
  | .tick => Sys2Proof.Machine.execTick s
  | .rx b => Sys2Proof.Machine.execRx b s
  | .reply marker text => Sys2Proof.Machine.execReply marker text s
  | .handlerDone => Sys2Proof.Machine.execHandlerDone s

end Sys2Proof.Machine
end

