-- ==== Sys2Proof/Machine/RefHandler.lean ====
section
/-! DEFINITION. Machine/RefHandler.lean: the reference handler (46_reply_and_handler.md R270-R277), a program of the handler agent. It is
one choice (decision D46): any other handler is a sequence of OP, REPLY and HANDLER_DONE inputs (log 13). Each step it takes is the
execution of one instruction. -/

namespace Sys2Proof.Machine

/-- Field j of the Message the handler sees. -/
def Message.field (m : Message) (j : Fin 4) : Word := m.fields[j]

/-- The axis field of the handler's ops: the low 8 bits of fields[0]. -/
def Message.axis8 (m : Message) : BitVec 8 := (m.field 0).extractLsb' 0 8

/-- `AxisOK` issues its op only if ax is in 0..255. -/
def Message.axisFits (m : Message) : Bool := decide (0 ≤ (m.field 0).toInt) && decide ((m.field 0).toInt ≤ 255)

/-- The line type of a Message (R80); a Message of another type does not occur. -/
def Message.lineType (m : Message) : Option LineType :=
  if m.type = 0 then some .go
  else if m.type = 1 then some .set
  else if m.type = 2 then some .get
  else if m.type = 3 then some .home
  else if m.type = 4 then some .state
  else if m.type = 5 then some .alive
  else none

/-- `REPLY(ERROR, "BAD AXIS")`, R277. -/
def badAxisText : List Byte := ascii "BAD AXIS"

/-- `REPLY(ERROR, "REJECTED")`, R277. -/
def rejectedText : List Byte := ascii "REJECTED"

/-- `dec` of an unsigned duration (decision D53). -/
def decUnsigned (w : Word) : List Byte := decNat w.toNat

/-- The setter of a parameter (R271). -/
def setterOf (p : Param) (axis : BitVec 8) (v : Word) : Instr :=
  match p with
  | .maxvel   => .setMaxvel axis v
  | .accel    => .setAccel axis v
  | .stopmode => .setStopmode axis v

/-- The getter of a parameter (R272). -/
def getterOf (p : Param) (axis : BitVec 8) : Instr :=
  match p with
  | .maxvel   => .getMaxvel axis
  | .accel    => .getAccel axis
  | .stopmode => .getStopmode axis

/-- The first step of the program of a line type. -/
def firstAction (t : LineType) (m : Message) : Instr :=
  match t with
  | .go | .home | .state => if m.axisFits then .getAxis m.axis8 else .reply .error badAxisText
  | .set   => setterOf (Param.ofEnum (m.field 1)) m.axis8 (m.field 2)
  | .get   => getterOf (Param.ofEnum (m.field 1)) m.axis8
  | .alive => .reply .ack []

/-- The step the handler takes next. -/
def handlerAction (ph : HandlerPhase) (t : LineType) (m : Message) : Instr :=
  match ph with
  | .idle                   => firstAction t m
  | .goCheckFinished        => .checkFinished m.axis8
  | .goMoveAbs              => .moveAbs m.axis8 (m.field 1)
  | .homeCheckFinished      => .checkFinished m.axis8
  | .homeHome               => .home m.axis8
  | .stateGetState          => .getState m.axis8
  | .stateGetPos _          => .getPos m.axis8
  | .stateCheckFinished _ _ => .checkFinished m.axis8
  | .sendReply mk text      => .reply mk text
  | .finish                 => .handlerDone

/-- `if not AxisOK(ax): REPLY(ERROR, "BAD AXIS"); DONE`, else go on at `next`. -/
def afterAxisOk (m : Message) (r : Response) (next : HandlerPhase) : HandlerPhase :=
  if m.axisFits = false then .finish
  else if r.ok then next
  else .sendReply .error badAxisText

/-- `if ok = 1: REPLY(ACK, text) else: REPLY(ERROR, "REJECTED")`. -/
def ackOrReject (r : Response) (text : List Byte) : HandlerPhase :=
  if r.ok then .sendReply .ack text else .sendReply .error rejectedText

/-- The STATE report `dec(s) ++ " " ++ dec(p)` (R274). -/
def stateReport (code position : Word) : List Byte := decInt code ++ 0x20#8 :: decInt position

/-- Where the handler stands after its first step. -/
def afterFirst (t : LineType) (m : Message) (r : Response) : HandlerPhase :=
  match t with
  | .go    => afterAxisOk m r .goCheckFinished
  | .home  => afterAxisOk m r .homeCheckFinished
  | .state => afterAxisOk m r .stateGetState
  | .set   => ackOrReject r []
  | .get   => .sendReply .ack (decInt r.result)
  | .alive => .finish

/-- Where the handler stands after a step, given the response of its op. -/
def handlerNext (ph : HandlerPhase) (t : LineType) (m : Message) (r : Response) : HandlerPhase :=
  match ph with
  | .idle                   => afterFirst t m r
  | .goCheckFinished        => .goMoveAbs
  | .goMoveAbs              => ackOrReject r (decUnsigned r.result)
  | .homeCheckFinished      => .homeHome
  | .homeHome               => ackOrReject r []
  | .stateGetState          => .stateGetPos r.result
  | .stateGetPos code       =>
    if code = 2 ∨ code = 5 then .stateCheckFinished code r.result else .sendReply .ack (stateReport code r.result)
  | .stateCheckFinished c p => .sendReply .ack (stateReport c p)
  | .sendReply _ _          => .finish
  | .finish                 => .idle

/-- The response of the step just made: the newest of the log. -/
def State.lastResponse (s : State) : Response := s.obs.responses.getLastD { ok := false, result := 0 }

/-- One step of the reference handler. It takes none while no Message is with it. -/
def handlerStep (s : State) : Result :=
  if s.parser.handlerBusy = false then .next { s with handler := .idle }
  else
    match s.parser.msg.lineType with
    | none   => .next s
    | some t =>
      match exec (handlerAction s.handler t s.parser.msg) s with
      | .next u    => .next { u with handler := handlerNext s.handler t s.parser.msg u.lastResponse }
      | .fault r   => .fault r
      | .refused r => .refused r

end Sys2Proof.Machine
end

