-- ==== Sys2Proof/Machine/Inputs.lean ====
section
/-! DEFINITION. Machine/Inputs.lean: which pending input the block takes next and what it does with it (00_scope.md R9, 20_memory.md R58,
44_line_input.md R210). -/

namespace Sys2Proof.Machine

/-- An RX byte waiting at its source. -/
def Input.isRx : Input → Bool
  | .port (.rx _) => true
  | .port (.op _ _) | .port .tick | .port (.reply _ _) | .port .handlerDone => false
  | .limit _ _ | .powerOn | .handler => false

/-- The first enabled input and the inputs left: while a Message is with the handler no RX step is enabled, and the bytes keep their
place at their source (R210, log 4). -/
def takeInput (busy : Bool) : List Input → Option (Input × List Input)
  | []        => none
  | i :: rest =>
    if busy && i.isRx then
      match takeInput busy rest with
      | none             => none
      | some (j, others) => some (j, i :: others)
    else some (i, rest)

/-- What a rejected port input does: a reserved op word fails with no effect (30_encoding.md R73). -/
def rejected (e : DecodeError) (s : State) : Result :=
  match e with
  | .reservedOpcode _ => failOp s
  | .replyText        => .refused .replyOutsideAlphabet
  | .line e           => .next (s.protocolError e)

/-- One port transfer decoded and executed. -/
def deliverPort (p : PortInput) (s : State) : Result :=
  match decodePort p with
  | .ok i    => exec i s
  | .error e => rejected e s

/-- One input. -/
def deliver (i : Input) (s : State) : Result :=
  match i with
  | .port p        => deliverPort p s
  | .limit k level => .next (s.driveLimit k level)
  | .powerOn       => .next s.powerOn
  | .handler       => handlerStep s

/-- The next enabled input taken and delivered. With none enabled nothing happens (log 3). -/
def stepInput (s : State) : Result :=
  match takeInput s.parser.handlerBusy s.inbox with
  | none           => .next s
  | some (i, rest) => deliver i { s with inbox := rest }

/-- An op request put where the next step takes it: at the head of the inbox. An OP is enabled in every state (R302). -/
def State.withRequest (s : State) (p : PortInput) : State := { s with inbox := .port p :: s.inbox }

end Sys2Proof.Machine
end

