-- ==== Sys2Proof/Machine/Step.lean ====
section
/-! DEFINITION. Machine/Step.lean: one step of the machine, and how the host puts one instruction before it. -/

namespace Sys2Proof.Machine

/-- One step (R9). -/
def step (s : State) : Host.Outcome State Fault Refusal := stepInput s

/-- `s` with the op request whose bits are `w` (numbered as opcode_table.json numbers them) as the very next input. -/
def State.withFetchWord (s : State) (nbits w : Nat) : State := s.withRequest (opOfBits nbits w)

end Sys2Proof.Machine
end

