-- ==== Sys2Proof/Safety.lean ====
section
/-! DEFINITION. Safety.lean: the invariant of the machine, the launch premises of 70_reset_and_hazards.md, the runs and frames that
statements speak of. -/

namespace Sys2Proof.Machine

/-! ### The invariant (10_state.md R27 and the ranges of R20-R38) -/

/-- Where a move ends: `position + direction * stepsRemaining` in Z (R163). -/
def Axis.moveEnd (a : Axis) : Int := a.position.toInt + directionInt a.direction * (a.stepsRemaining.toNat : Int)

/-- The invariants of one axis. -/
structure Axis.Inv (budget : Word) (a : Axis) : Prop where
  /-- R27.1: stepsRemaining = 0 iff the axis is not busy. -/
  count      : a.stepsRemaining = 0 ↔ a.state.busy = false
  /-- R27.2. -/
  moveShape  : a.state = .moving →
    1 ≤ a.runLength.toNat ∧ a.runLength.toNat ≤ a.riseLength.toNat ∧ a.error.toNat < a.riseLength.toNat ∧
      1 ≤ a.stepsRemaining.toNat ∧ a.stepsRemaining.toNat ≤ a.runLength.toNat
  /-- R27.3: after some k < riseLength ticks of the move. -/
  movePhase  : a.state = .moving → ∃ k, k < a.riseLength.toNat ∧
    a.stepsRemaining.toNat = a.runLength.toNat - k * a.runLength.toNat / a.riseLength.toNat ∧
    a.error.toNat = k * a.runLength.toNat - k * a.runLength.toNat / a.riseLength.toNat * a.riseLength.toNat
  /-- R163: the end of a move is an int32. -/
  moveTarget : a.state = .moving → FitsInt32 a.moveEnd
  /-- R27.4: DIR follows direction. -/
  dirOutput  : a.dir = dirLevel a.direction
  /-- R23, R303: a homing phase counts down from the budget. -/
  homeBudget : a.state = .homingSeek ∨ a.state = .homingBackoff → a.stepsRemaining.toNat ≤ budget.toNat
  /-- R167: during the seek, direction = homeDirection. -/
  seekDir    : a.state = .homingSeek → a.direction = a.config.homeDirection
  /-- R167, R168: during the back-off the direction is the opposite one. -/
  backoffDir : a.state = .homingBackoff → a.direction = reverseDirection a.config.homeDirection
  /-- R104, R110: a busy axis is energized. -/
  energized  : a.state.busy = true → a.enable = true

/-- The invariants of the machine. -/
structure State.Inv (s : State) : Prop where
  /-- R3. -/
  params       : s.params.Legal
  /-- R2, R3: 1 to MAX_AXES axes are built. -/
  axisCount    : 1 ≤ s.numAxes ∧ s.numAxes ≤ maxAxes
  /-- R27. -/
  axes         : ∀ a ∈ s.axes, a.Inv s.params.homeTickBudget
  /-- R20, D27: before SETUP the frequency is 0 and no axis is busy. -/
  unconfigured : s.registry.configured = false → s.registry.frequency = 0 ∧ anyBusy s.axes = false
  /-- R190: SETUP refuses a frequency of 0. -/
  configured   : s.registry.configured = true → s.registry.frequency ≠ 0
  /-- R36: the buffer is bounded and printable. -/
  buffer       : s.parser.buf.length ≤ s.params.cmdBufLen ∧ s.parser.buf.all printable = true
  /-- R213, R214: nothing is kept while a long line is dropped. -/
  discarding   : s.parser.discarding = true → s.parser.buf = []
  /-- R38: a message-type enum, stored twice. -/
  message      : s.parser.msg.typeDefIndex = s.parser.msg.type ∧ s.parser.msg.type.toNat ≤ 5
  /-- The store is canonical and lists only offsets it has (R51). -/
  store        : s.store.wf = true ∧ ∀ c ∈ s.store, c.1 < s.params.storeSize

/-! ### Launch premises (R333, R334) -/

/-- Idle (R333): no axis is busy, no Message is with the handler, no line is begun. -/
def State.Idle (s : State) : Prop :=
  anyBusy s.axes = false ∧ s.parser.handlerBusy = false ∧ s.parser.buf = [] ∧ s.parser.discarding = false

/-- Booted(f) (R333): ResetState of a build, then one successful SETUP. -/
def State.bootedOf (b : Build) (f : Word) : State :=
  { State.resetOf b with
    registry := { configured := true, frequency := f }
    obs      := { Observation.empty with responses := [{ ok := true, result := 0 }] } }

/-- What R334 bars from pending at the end of a run: an RX byte, a TICK, an event of the handler. An OP request of other mainline code, a
LIMIT level and a power-on are none of these. -/
def Input.delaysEnd : Input → Bool
  | .port (.rx _) | .port .tick | .port (.reply _ _) | .port .handlerDone | .handler => true
  | .port (.op _ _) | .limit _ _ | .powerOn => false

/-- Quiescent (R334): idle, so every axis is at rest, and no RX byte, TICK or handler event is pending at the environment. -/
def State.Quiescent (s : State) : Prop := s.Idle ∧ ∀ i ∈ s.inbox, i.delaysEnd = false

/-! ### Runs -/

/-- k TICK steps. -/
def tickRun : Nat → State → Result
  | 0, s     => .next s
  | k + 1, s =>
    match execTick s with
    | .next t    => tickRun k t
    | .fault r   => .fault r
    | .refused r => .refused r

/-- TICK steps, LIMIT[i] driven to one level before each (R35, R85). -/
def limitTickRun (i : Nat) : List Bool → State → Result
  | [], s              => .next s
  | level :: levels, s =>
    match execTick (s.driveLimit i level) with
    | .next t    => limitTickRun i levels t
    | .fault r   => .fault r
    | .refused r => .refused r

/-- RX steps, one for each byte. -/
def rxRun : List Byte → State → Result
  | [], s      => .next s
  | b :: bs, s =>
    match execRx b s with
    | .next t    => rxRun bs t
    | .fault r   => .fault r
    | .refused r => .refused r

/-- Steps of the reference handler. -/
def handlerRun : Nat → State → Result
  | 0, s     => .next s
  | k + 1, s =>
    match handlerStep s with
    | .next t    => handlerRun k t
    | .fault r   => .fault r
    | .refused r => .refused r

/-- The step events of axis i in a log. -/
def stepsOf (i : Nat) (log : List StepEvent) : List StepEvent := log.filter fun e => e.axis == i

/-! ### Frames -/

/-- Everything outside the axes, the responses and the step log is as before. -/
structure State.SameSurroundings (s t : State) : Prop where
  params   : t.params = s.params
  registry : t.registry = s.registry
  parser   : t.parser = s.parser
  store    : t.store = s.store
  handler  : t.handler = s.handler
  inbox    : t.inbox = s.inbox
  tx       : t.obs.tx = s.obs.tx
  messages : t.obs.messages = s.obs.messages

/-- The same axes are built and every axis but i is as before. -/
structure State.SameAxesBut (i : Nat) (s t : State) : Prop where
  count  : t.numAxes = s.numAxes
  others : ∀ j, j ≠ i → t.axes[j]? = s.axes[j]?

/-- The step events and the responses but one last are as before. -/
structure State.Answered (s t : State) (ok : Bool) (result : Word) : Prop where
  responses : t.obs.responses = s.obs.responses ++ [{ ok := ok, result := result }]
  steps     : t.obs.steps = s.obs.steps

/-- An axis keeps its run state (R22-R26) and its outputs (R34). -/
structure Axis.SameMotion (a b : Axis) : Prop where
  position       : b.position = a.position
  stepsRemaining : b.stepsRemaining = a.stepsRemaining
  direction      : b.direction = a.direction
  runLength      : b.runLength = a.runLength
  riseLength     : b.riseLength = a.riseLength
  error          : b.error = a.error
  state          : b.state = a.state
  enable         : b.enable = a.enable
  step           : b.step = a.step
  dir            : b.dir = a.dir

/-- Only LIMIT, build and configuration of the axis are known to be as before. -/
structure Axis.SameFixtures (a b : Axis) : Prop where
  build  : b.build = a.build
  config : b.config = a.config
  limit  : b.limit = a.limit

/-! ### Moves (R100-R106) -/

/-- The steps of a move from an axis to a target (R100). -/
def Axis.stepsTo (a : Axis) (target : Int) : Nat := (target - a.position.toInt).natAbs

/-- The duration of that move in ticks: max(ProfileTicks(D, V, A, F), D) (R102, R103). -/
def State.durationTo (s : State) (a : Axis) (target : Int) : Nat :=
  max (profileTicks (a.stepsTo target) a.config.maxVelocity.toInt.toNat a.config.acceleration.toInt.toNat
    s.registry.frequency.toNat) (a.stepsTo target)

/-- Every precondition of StartMove (R100). -/
structure State.MayMove (s : State) (a : Axis) (target : Int) : Prop where
  ready      : a.state = .ready
  configured : s.registry.configured = true
  distance   : target ≠ a.position.toInt
  velocity   : 0 < a.config.maxVelocity.toInt
  accel      : 0 < a.config.acceleration.toInt
  fits       : s.durationTo a target ≤ 4294967295

/-- What a successful MOVE_ABS or MOVE_REL of axis i writes and leaves (R104, R105); `b` is the axis after it. -/
structure State.MoveStarted (s t : State) (i : Nat) (a b : Axis) (target : Int) : Prop where
  axis           : t.axes[i]? = some b
  state          : b.state = .moving
  direction      : b.direction = if a.position.toInt < target then .plus else .minus
  dir            : b.dir = decide (a.position.toInt < target)
  runLength      : b.runLength.toNat = a.stepsTo target
  riseLength     : b.riseLength.toNat = s.durationTo a target
  error          : b.error = 0
  stepsRemaining : b.stepsRemaining = b.runLength
  enable         : b.enable = true
  position       : b.position = a.position
  step           : b.step = a.step
  fixtures       : a.SameFixtures b
  answer         : s.Answered t true b.riseLength
  others         : s.SameAxesBut i t
  surroundings   : s.SameSurroundings t

/-- The axis field an OP uses (R72); the registry ops marked "-" use none. -/
def opAxis : Instr → Option (BitVec 8)
  | .moveAbs a _ | .moveRel a _ | .home a | .setPos a _ | .axisReset a
  | .getPos a | .busy a | .checkFinished a | .getState a
  | .getMaxvel a | .setMaxvel a _ | .getAccel a | .setAccel a _ | .getStopmode a | .setStopmode a _
  | .getHomedir a | .getCanhome a | .getAxis a => some a
  | .setup _ | .saveSettings _ | .restoreSettings _
  | .lineGo _ _ | .lineSet _ _ _ | .lineGet _ _ | .lineHome _ | .lineState _ | .lineAlive
  | .tick | .rx _ | .reply _ _ | .handlerDone => none

/-- The 21 OP requests (R72). -/
def isOp : Instr → Bool
  | .setup _ | .saveSettings _ | .restoreSettings _ => true
  | i => (opAxis i).isSome

/-- The arcs of R114's table that an OP or TICK step takes; the state may also stay as it is. -/
def arc (i : Instr) (old new : RunState) : Bool :=
  match i, old, new with
  | .moveAbs _ _, .ready, .moving => true
  | .moveRel _ _, .ready, .moving => true
  | .home _, .ready, .homingSeek => true
  | .checkFinished _, .finishedMoving, .ready => true
  | .checkFinished _, .finishedHoming, .ready => true
  | .axisReset _, .error, .ready => true
  | .tick, .moving, .finishedMoving => true
  | .tick, .homingSeek, .homingBackoff => true
  | .tick, .homingBackoff, .finishedHoming => true
  | .tick, .moving, .error => true
  | .tick, .homingSeek, .error => true
  | .tick, .homingBackoff, .error => true
  | _, _, _ => false

/-- An input the environment is assumed to give (R344): a REPLY has printable text. -/
def Input.legal : Input → Bool
  | .port (.reply _ text) => text.all printable
  | .port (.op _ _) | .port .tick | .port (.rx _) | .port .handlerDone | .limit _ _ | .powerOn | .handler => true

end Sys2Proof.Machine
end

