-- ==== Sys2Proof/Certificates/Slice0/Obligations.lean ====
section
/-! DEFINITION. Certificates/Slice0/Obligations.lean: the statements for the provers. "Fails" means: the state after is the state before with
the response ok = 0, RESULT = 0 appended, and nothing else (R71). An axis index i is valid iff `s.axes[i]?` is some axis (R74). -/

open Sys2Proof Sys2Proof.Machine

/-! ## Reset, decoding and the step -/

/-- R27: the invariant holds at reset, of every legal build and of the standard one (log 1). -/
def Obligations.ResetHoldsInvariant : Prop :=
  (∀ b : Build, b.Legal → (State.resetOf b).Inv) ∧ State.reset.Inv

/-- R47, row by row, for every build. -/
def Obligations.ResetGivesEveryFieldItsValue : Prop :=
  ∀ (b : Build) (s : State), s = State.resetOf b →
    s.registry.configured = false ∧ s.registry.frequency = 0 ∧ s.axes.length = b.axes.length ∧
    (∀ (i : Nat) (ab : AxisBuild), b.axes[i]? = some ab → ∃ a : Axis, s.axes[i]? = some a ∧
      a.state = .ready ∧ a.position = 0 ∧ a.stepsRemaining = 0 ∧ a.direction = .plus ∧
      a.runLength = 0 ∧ a.riseLength = 0 ∧ a.error = 0 ∧
      a.config.maxVelocity = ab.init.maxVelocity ∧ a.config.acceleration = ab.init.acceleration ∧
      a.config.stopMode = ab.init.stopMode ∧ a.config.homeDirection = ab.init.homeDirection ∧
      a.config.canHome = ab.init.canHome ∧
      a.enable = false ∧ a.step = false ∧ a.dir = true) ∧
    s.parser.buf = [] ∧ s.parser.discarding = false ∧ s.parser.handlerBusy = false ∧
    s.parser.msg.type = 0 ∧ s.parser.msg.typeDefIndex = 0 ∧ (∀ j : Fin 4, s.parser.msg.fields[j] = 0) ∧
    s.obs.tx = [] ∧ s.obs.steps = []

/-- Power-on (R330; log 8) puts every axis, the Registry and the Interpreter in their reset values, whatever they were; the Value Store, the
LIMIT levels, the build and what is still pending survive. -/
def Obligations.PowerOnResetsTheBlockOnly : Prop :=
  ∀ (s : State) (rest : List Input), s.inbox = .powerOn :: rest →
    ∃ t : State, step s = .next t ∧ t.inbox = rest ∧ t.store = s.store ∧ t.params = s.params ∧
      t.registry = { configured := false, frequency := 0 } ∧ t.parser = Interpreter.reset ∧
      t.obs.tx = [] ∧ t.obs.steps = [] ∧ t.numAxes = s.numAxes ∧
      ∀ (i : Nat) (a : Axis), s.axes[i]? = some a → ∃ b : Axis, t.axes[i]? = some b ∧
        b.build = a.build ∧ b.limit = a.limit ∧ b.config = a.build.init ∧ b.state = .ready ∧ b.position = 0 ∧
        b.stepsRemaining = 0 ∧ b.direction = .plus ∧ b.runLength = 0 ∧ b.riseLength = 0 ∧ b.error = 0 ∧
        b.enable = false ∧ b.step = false ∧ b.dir = true

/-- R333: one SETUP with a frequency that is not 0 boots a reset machine, and the booted state is idle. -/
def Obligations.SetupBoots : Prop :=
  ∀ (b : Build) (f : Word), f ≠ 0 →
    exec (.setup f) (State.resetOf b) = .next (State.bootedOf b f) ∧ (State.bootedOf b f).Idle

/-- Every well-formed instruction is read back from its encoding, with every operand at every value (R70, R72, R75, R77-R80). -/
def Obligations.DecodeEncodeAgree : Prop :=
  ∀ (numAxes : Nat) (i : Instr), i.wellFormed numAxes = true → decode numAxes (encode i) = .ok i

/-- The words and lines of R72, R75 and R77 that the spec writes out (95_test_vectors.md) decode to their instructions. -/
def Obligations.WrittenWordsDecode : Prop :=
  decode 2 (.port (.op 0x0100#16 0x3E8#32)) = .ok (.moveAbs 0#8 1000#32) ∧
  decode 2 (.port (.op 0x0201#16 0xFFFFFFFD#32)) = .ok (.moveRel 1#8 (-3#32)) ∧
  decode 2 (.port (.op 0x0300#16 0#32)) = .ok (.home 0#8) ∧
  decode 2 (.port (.op 0x1201#16 0#32)) = .ok (.checkFinished 1#8) ∧
  decode 2 (.port (.op 0x2500#16 1#32)) = .ok (.setStopmode 0#8 1#32) ∧
  decode 2 (.port (.op 0x3000#16 0x3E8#32)) = .ok (.setup 1000#32) ∧
  decode 2 (.port (.op 0x3300#16 0xA#32)) = .ok (.restoreSettings 10#32) ∧
  decode 2 (.line [0x53, 0x45, 0x54, 0x20, 0x30, 0x20, 0x4D, 0x41, 0x58, 0x56, 0x45, 0x4C, 0x20, 0x32, 0x30, 0x30]) =
    .ok (.lineSet 0#32 .maxvel 200#32) ∧
  decode 2 (.line [0x47, 0x4F, 0x20, 0x30, 0x20, 0x31, 0x30, 0x30, 0x30]) = .ok (.lineGo 0#32 1000#32) ∧
  decode 2 (.line [0x46, 0x4F, 0x4F]) = .error (.line .unknownCommand)

/-- R73. -/
def Obligations.ReservedOpWordsFail : Prop :=
  ∀ (s : State) (w : OpWord) (v : Word),
    w.extractLsb' 8 8 ∉ [0x01#8, 0x02#8, 0x03#8, 0x04#8, 0x05#8, 0x10#8, 0x11#8, 0x12#8, 0x13#8, 0x20#8, 0x21#8, 0x22#8,
      0x23#8, 0x24#8, 0x25#8, 0x26#8, 0x27#8, 0x30#8, 0x31#8, 0x32#8, 0x33#8] →
    deliver (.port (.op w v)) s = .next (s.respond false 0)

/-- A step executes the instruction that its input decodes to, at the state with that input taken; and the terminator of a line that decodes
executes the line's instruction, with the buffer emptied (R9, R212, R232). -/
def Obligations.StepRunsTheDecodedInstruction : Prop :=
  (∀ (s : State) (p : PortInput) (rest : List Input) (i : Instr),
    s.inbox = .port p :: rest → (s.parser.handlerBusy = true → ∀ b, p ≠ .rx b) → decodePort p = .ok i →
    step s = exec i { s with inbox := rest }) ∧
  (∀ (s : State) (b : Byte) (rest : List Input) (i : Instr),
    s.inbox = .port (.rx b) :: rest → b = 0x0D#8 ∨ b = 0x0A#8 → s.parser.handlerBusy = false →
    s.parser.discarding = false → s.parser.buf ≠ [] → decode s.numAxes (.line s.parser.buf) = .ok i →
    step s = exec i { s with inbox := rest, parser := { s.parser with buf := [] } })

/-- While a Message is with the handler, RX bytes keep their place at their source and the first other input is taken; with nothing but RX
bytes pending, a step changes nothing (R210, R302, U16; log 4). No byte and no line is taken meanwhile (log 4, log 9). -/
def Obligations.BytesWaitWhileHandlerIsBusy : Prop :=
  (∀ (s : State) (bytes : List Byte) (i : Input) (rest : List Input),
    s.parser.handlerBusy = true → (∀ b, i ≠ .port (.rx b)) →
    s.inbox = (bytes.map fun b => Input.port (.rx b)) ++ i :: rest →
    step s = deliver i { s with inbox := (bytes.map fun b => Input.port (.rx b)) ++ rest }) ∧
  (∀ (s : State) (bytes : List Byte),
    s.parser.handlerBusy = true → s.inbox = (bytes.map fun b => Input.port (.rx b)) → step s = .next s) ∧
  (∀ s : State, s.parser.handlerBusy = true →
    (∀ b : Byte, exec (.rx b) s = .next s) ∧
    (∀ axis target : Word, exec (.lineGo axis target) s = .next s) ∧
    (∀ (axis : Word) (p : Param) (v : Word), exec (.lineSet axis p v) s = .next s) ∧
    (∀ (axis : Word) (p : Param), exec (.lineGet axis p) s = .next s) ∧
    (∀ axis : Word, exec (.lineHome axis) s = .next s) ∧
    (∀ axis : Word, exec (.lineState axis) s = .next s) ∧
    exec .lineAlive s = .next s)

/-! ## The OP requests -/

/-- MOVE_ABS (R100, R104, R105). -/
def Obligations.MoveAbsStartsOrFails : Prop :=
  ∀ (s : State) (axis : BitVec 8) (target : Word),
    decodePort (.op (0x01#8 ++ axis) target) = .ok (.moveAbs axis target) ∧
    (s.axes[axis.toNat]? = none → exec (.moveAbs axis target) s = .next (s.respond false 0)) ∧
    ∀ a : Axis, s.axes[axis.toNat]? = some a →
      (s.MayMove a target.toInt →
        ∃ (t : State) (b : Axis), exec (.moveAbs axis target) s = .next t ∧ s.MoveStarted t axis.toNat a b target.toInt) ∧
      (¬ s.MayMove a target.toInt → exec (.moveAbs axis target) s = .next (s.respond false 0))

/-- MOVE_REL (R106): as MOVE_ABS at position + delta in Z, which must be an int32. -/
def Obligations.MoveRelStartsOrFails : Prop :=
  ∀ (s : State) (axis : BitVec 8) (delta : Word),
    decodePort (.op (0x02#8 ++ axis) delta) = .ok (.moveRel axis delta) ∧
    (s.axes[axis.toNat]? = none → exec (.moveRel axis delta) s = .next (s.respond false 0)) ∧
    ∀ a : Axis, s.axes[axis.toNat]? = some a → ∀ target : Int, target = a.position.toInt + delta.toInt →
      (-2147483648 ≤ target → target ≤ 2147483647 → s.MayMove a target →
        ∃ (t : State) (b : Axis), exec (.moveRel axis delta) s = .next t ∧ s.MoveStarted t axis.toNat a b target) ∧
      (target < -2147483648 ∨ 2147483647 < target ∨ ¬ s.MayMove a target →
        exec (.moveRel axis delta) s = .next (s.respond false 0))

/-- HOME (R110). -/
def Obligations.HomeStartsOrFails : Prop :=
  ∀ (s : State) (axis : BitVec 8) (v : Word),
    decodePort (.op (0x03#8 ++ axis) v) = .ok (.home axis) ∧
    (s.axes[axis.toNat]? = none → exec (.home axis) s = .next (s.respond false 0)) ∧
    ∀ a : Axis, s.axes[axis.toNat]? = some a →
      (a.state = .ready → a.config.canHome = true → s.registry.configured = true →
        ∃ (t : State) (b : Axis), exec (.home axis) s = .next t ∧ t.axes[axis.toNat]? = some b ∧
          b.state = .homingSeek ∧ b.direction = a.config.homeDirection ∧
          b.dir = decide (a.config.homeDirection = .plus) ∧ b.stepsRemaining = s.params.homeTickBudget ∧ b.enable = true ∧
          b.position = a.position ∧ b.runLength = a.runLength ∧ b.riseLength = a.riseLength ∧ b.error = a.error ∧
          b.step = a.step ∧ a.SameFixtures b ∧
          s.Answered t true 0 ∧ s.SameAxesBut axis.toNat t ∧ s.SameSurroundings t) ∧
      (a.state ≠ .ready ∨ a.config.canHome = false ∨ s.registry.configured = false →
        exec (.home axis) s = .next (s.respond false 0))

/-- SET_POS (R111). -/
def Obligations.SetPosWritesPositionOnly : Prop :=
  ∀ (s : State) (axis : BitVec 8) (p : Word),
    decodePort (.op (0x04#8 ++ axis) p) = .ok (.setPos axis p) ∧
    (s.axes[axis.toNat]? = none → exec (.setPos axis p) s = .next (s.respond false 0)) ∧
    ∀ a : Axis, s.axes[axis.toNat]? = some a →
      (a.state = .ready →
        ∃ t : State, exec (.setPos axis p) s = .next t ∧ t.axes[axis.toNat]? = some { a with position := p } ∧
          s.Answered t true 0 ∧ s.SameAxesBut axis.toNat t ∧ s.SameSurroundings t) ∧
      (a.state ≠ .ready → exec (.setPos axis p) s = .next (s.respond false 0))

/-- AXIS_RESET (R113), and what it keeps (R331). -/
def Obligations.AxisResetLeavesError : Prop :=
  ∀ (s : State) (axis : BitVec 8) (v : Word),
    decodePort (.op (0x05#8 ++ axis) v) = .ok (.axisReset axis) ∧
    (s.axes[axis.toNat]? = none → exec (.axisReset axis) s = .next (s.respond false 0)) ∧
    ∀ a : Axis, s.axes[axis.toNat]? = some a →
      (a.state = .error →
        ∃ (t : State) (b : Axis), exec (.axisReset axis) s = .next t ∧ t.axes[axis.toNat]? = some b ∧
          b.state = .ready ∧ b.position = 0 ∧ b.stepsRemaining = 0 ∧ b.runLength = 0 ∧ b.riseLength = 0 ∧ b.error = 0 ∧
          b.direction = .plus ∧ b.dir = true ∧ b.enable = a.enable ∧ b.step = a.step ∧ a.SameFixtures b ∧
          s.Answered t true 0 ∧ s.SameAxesBut axis.toNat t ∧ s.SameSurroundings t) ∧
      (a.state ≠ .error → exec (.axisReset axis) s = .next (s.respond false 0))

/-- The OP with this opcode answers a value of the addressed axis in every state of that axis and writes nothing; it fails for an axis that
is not valid. -/
def ReadsAxis (opcode : BitVec 8) (op : BitVec 8 → Instr) (value : Axis → Word) : Prop :=
  ∀ (s : State) (axis : BitVec 8) (v : Word),
    decodePort (.op (opcode ++ axis) v) = .ok (op axis) ∧
    (s.axes[axis.toNat]? = none → exec (op axis) s = .next (s.respond false 0)) ∧
    ∀ a : Axis, s.axes[axis.toNat]? = some a → exec (op axis) s = .next (s.respond true (value a))

/-- GET_POS, BUSY, GET_STATE, the getters and GET_AXIS (R130, R131, R133, R140, R142, R144, R146, R147, R191). -/
def Obligations.QueriesAnswerAndWriteNothing : Prop :=
  ReadsAxis 0x10#8 .getPos (fun a => a.position) ∧
  ReadsAxis 0x11#8 .busy (fun a => if a.state = .moving ∨ a.state = .homingSeek ∨ a.state = .homingBackoff then 1 else 0) ∧
  ReadsAxis 0x13#8 .getState (fun a =>
    match a.state with
    | .ready => 0 | .moving => 1 | .finishedMoving => 2 | .homingSeek => 3 | .homingBackoff => 4 | .finishedHoming => 5
    | .error => 6) ∧
  ReadsAxis 0x20#8 .getMaxvel (fun a => a.config.maxVelocity) ∧
  ReadsAxis 0x22#8 .getAccel (fun a => a.config.acceleration) ∧
  ReadsAxis 0x24#8 .getStopmode (fun a => match a.config.stopMode with | .hold => 0 | .disable => 1) ∧
  ReadsAxis 0x26#8 .getHomedir (fun a => match a.config.homeDirection with | .plus => 0x00000001 | .minus => 0xFFFFFFFF) ∧
  ReadsAxis 0x27#8 .getCanhome (fun a => match a.config.canHome with | false => 0 | true => 1) ∧
  ReadsAxis 0x31#8 .getAxis (fun _ => 0)

/-- CHECK_FINISHED (R132). -/
def Obligations.CheckFinishedTestsAndClears : Prop :=
  ∀ (s : State) (axis : BitVec 8) (v : Word),
    decodePort (.op (0x12#8 ++ axis) v) = .ok (.checkFinished axis) ∧
    (s.axes[axis.toNat]? = none → exec (.checkFinished axis) s = .next (s.respond false 0)) ∧
    ∀ a : Axis, s.axes[axis.toNat]? = some a →
      (a.state = .finishedMoving ∨ a.state = .finishedHoming →
        ∃ t : State, exec (.checkFinished axis) s = .next t ∧ t.axes[axis.toNat]? = some { a with state := .ready } ∧
          s.Answered t true 1 ∧ s.SameAxesBut axis.toNat t ∧ s.SameSurroundings t) ∧
      (a.state ≠ .finishedMoving → a.state ≠ .finishedHoming →
        exec (.checkFinished axis) s = .next (s.respond true 0))

/-- Two CHECK_FINISHED after one completion give 1 and then 0 (R43, R132). -/
def Obligations.CompletionIsSeenOnce : Prop :=
  ∀ (s : State) (axis : BitVec 8) (a : Axis), s.axes[axis.toNat]? = some a →
    a.state = .finishedMoving ∨ a.state = .finishedHoming →
    ∃ (t : State) (u : State), exec (.checkFinished axis) s = .next t ∧ exec (.checkFinished axis) t = .next u ∧
      u.obs.responses = s.obs.responses ++ [{ ok := true, result := 1 }, { ok := true, result := 0 }] ∧ u.axes = t.axes

/-- The OP with this opcode writes one configuration field of an axis that is not busy, for a legal value, and nothing else. -/
def WritesConfig (opcode : BitVec 8) (op : BitVec 8 → Word → Instr) (legal : Word → Prop)
    (set : AxisConfig → Word → AxisConfig) : Prop :=
  ∀ (s : State) (axis : BitVec 8) (v : Word),
    decodePort (.op (opcode ++ axis) v) = .ok (op axis v) ∧
    (s.axes[axis.toNat]? = none → exec (op axis v) s = .next (s.respond false 0)) ∧
    ∀ a : Axis, s.axes[axis.toNat]? = some a →
      (a.state ≠ .moving → a.state ≠ .homingSeek → a.state ≠ .homingBackoff → legal v →
        ∃ t : State, exec (op axis v) s = .next t ∧ t.axes[axis.toNat]? = some { a with config := set a.config v } ∧
          s.Answered t true 0 ∧ s.SameAxesBut axis.toNat t ∧ s.SameSurroundings t) ∧
      (a.state = .moving ∨ a.state = .homingSeek ∨ a.state = .homingBackoff ∨ ¬ legal v →
        exec (op axis v) s = .next (s.respond false 0))

/-- SET_MAXVEL, SET_ACCEL and SET_STOPMODE (R141, R143, R145). -/
def Obligations.SettersWriteOneField : Prop :=
  WritesConfig 0x21#8 .setMaxvel (fun v => 0 < v.toInt) (fun c v => { c with maxVelocity := v }) ∧
  WritesConfig 0x23#8 .setAccel (fun v => 0 < v.toInt) (fun c v => { c with acceleration := v }) ∧
  WritesConfig 0x25#8 .setStopmode (fun v => v = 0 ∨ v = 1)
    (fun c v => { c with stopMode := if v = 0 then .hold else .disable })

/-- SETUP (R190). -/
def Obligations.SetupConfiguresOnce : Prop :=
  ∀ (s : State) (f : Word) (x : BitVec 8),
    decodePort (.op (0x30#8 ++ x) f) = .ok (.setup f) ∧
    (s.registry.configured = false → f ≠ 0 →
      ∃ t : State, exec (.setup f) s = .next t ∧ t.registry.frequency = f ∧ t.registry.configured = true ∧
        s.Answered t true 0 ∧ t.axes = s.axes ∧ t.params = s.params ∧ t.parser = s.parser ∧ t.store = s.store ∧
        t.handler = s.handler ∧ t.inbox = s.inbox ∧ t.obs.tx = s.obs.tx ∧ t.obs.messages = s.obs.messages) ∧
    (s.registry.configured = true ∨ f = 0 → exec (.setup f) s = .next (s.respond false 0))

/-- SAVE_SETTINGS (R192) into a canonical store (an invariant), with the record layout of R83. The byte order is the spec's decision
D29. -/
def Obligations.SaveWritesTheRecords : Prop :=
  ∀ (s : State) (off : Word) (x : BitVec 8), s.store.wf = true →
    decodePort (.op (0x32#8 ++ x) off) = .ok (.saveSettings off) ∧
    (off.toNat + 11 * s.numAxes ≤ s.params.storeSize → s.params.storeSize < 4294967296 →
      ∃ (t : State) (r : Word), exec (.saveSettings off) s = .next t ∧ r.toNat = off.toNat + 11 * s.numAxes ∧ s.Answered t true r ∧
        (∀ (i : Nat) (a : Axis), s.axes[i]? = some a →
          t.store.read (off.toNat + 11 * i) = a.config.maxVelocity.extractLsb' 0 8 ∧
          t.store.read (off.toNat + 11 * i + 1) = a.config.maxVelocity.extractLsb' 8 8 ∧
          t.store.read (off.toNat + 11 * i + 2) = a.config.maxVelocity.extractLsb' 16 8 ∧
          t.store.read (off.toNat + 11 * i + 3) = a.config.maxVelocity.extractLsb' 24 8 ∧
          t.store.read (off.toNat + 11 * i + 4) = a.config.acceleration.extractLsb' 0 8 ∧
          t.store.read (off.toNat + 11 * i + 5) = a.config.acceleration.extractLsb' 8 8 ∧
          t.store.read (off.toNat + 11 * i + 6) = a.config.acceleration.extractLsb' 16 8 ∧
          t.store.read (off.toNat + 11 * i + 7) = a.config.acceleration.extractLsb' 24 8 ∧
          t.store.read (off.toNat + 11 * i + 8) = (if a.config.stopMode = .hold then 0 else 1) ∧
          t.store.read (off.toNat + 11 * i + 9) = (if a.config.homeDirection = .plus then 0 else 1) ∧
          t.store.read (off.toNat + 11 * i + 10) = (if a.config.canHome then 1 else 0)) ∧
        (∀ o, o < off.toNat ∨ off.toNat + 11 * s.numAxes ≤ o → t.store.read o = s.store.read o) ∧
        t.axes = s.axes ∧ t.registry = s.registry ∧ t.params = s.params ∧ t.parser = s.parser ∧
        t.handler = s.handler ∧ t.inbox = s.inbox ∧ t.obs.tx = s.obs.tx ∧ t.obs.messages = s.obs.messages) ∧
    (s.params.storeSize < off.toNat + 11 * s.numAxes → exec (.saveSettings off) s = .next (s.respond false 0))

/-- RESTORE_SETTINGS (R194) with the total decode of R193. -/
def Obligations.RestoreReadsTheRecords : Prop :=
  ∀ (s : State) (off : Word) (x : BitVec 8),
    decodePort (.op (0x33#8 ++ x) off) = .ok (.restoreSettings off) ∧
    ((∀ a ∈ s.axes, a.state ≠ .moving ∧ a.state ≠ .homingSeek ∧ a.state ≠ .homingBackoff) →
      off.toNat + 11 * s.numAxes ≤ s.params.storeSize → s.params.storeSize < 4294967296 →
      ∃ (t : State) (r : Word), exec (.restoreSettings off) s = .next t ∧ r.toNat = off.toNat + 11 * s.numAxes ∧ s.Answered t true r ∧
        t.numAxes = s.numAxes ∧
        (∀ (i : Nat) (a : Axis), s.axes[i]? = some a → ∃ b : Axis, t.axes[i]? = some b ∧ a.SameMotion b ∧ b.build = a.build ∧ b.limit = a.limit ∧
          ∀ byte : Nat → Byte, (∀ k, byte k = s.store.read (off.toNat + 11 * i + k)) →
            b.config.maxVelocity = byte 3 ++ byte 2 ++ byte 1 ++ byte 0 ∧
            b.config.acceleration = byte 7 ++ byte 6 ++ byte 5 ++ byte 4 ∧
            b.config.stopMode = (if byte 8 = 0 then .hold else .disable) ∧
            b.config.homeDirection = (if byte 9 = 0 then .plus else .minus) ∧
            b.config.canHome = decide (byte 10 ≠ 0)) ∧
        s.SameSurroundings t) ∧
    ((∃ a ∈ s.axes, a.state = .moving ∨ a.state = .homingSeek ∨ a.state = .homingBackoff) ∨
        s.params.storeSize < off.toNat + 11 * s.numAxes →
      exec (.restoreSettings off) s = .next (s.respond false 0))

/-- R195: what SAVE_SETTINGS wrote, RESTORE_SETTINGS reads back, from any later state with the same axes built, no axis busy and the saved
bytes unchanged, whatever its configuration became in between. -/
def Obligations.SaveThenRestoreRoundTrip : Prop :=
  ∀ (s t u v : State) (off : Word),
    s.store.wf = true → off.toNat + 11 * s.numAxes ≤ s.params.storeSize → s.params.storeSize < 4294967296 →
    exec (.saveSettings off) s = .next t →
    u.numAxes = s.numAxes → u.params = s.params →
    (∀ o, off.toNat ≤ o → o < off.toNat + 11 * s.numAxes → u.store.read o = t.store.read o) →
    (∀ a ∈ u.axes, a.state ≠ .moving ∧ a.state ≠ .homingSeek ∧ a.state ≠ .homingBackoff) →
    exec (.restoreSettings off) u = .next v →
    ∀ (i : Nat) (a : Axis), s.axes[i]? = some a → ∃ b : Axis, v.axes[i]? = some b ∧ b.config = a.config

/-- R74: an axis field that is not a valid axis index fails, before anything else is checked. -/
def Obligations.AxisOutOfRangeFails : Prop :=
  ∀ (s : State) (i : Instr) (axis : BitVec 8), opAxis i = some axis → s.numAxes ≤ axis.toNat →
    exec i s = .next (s.respond false 0)

/-- R71: every OP gives exactly one answer, and an OP answered ok = 0 has RESULT 0 and changed nothing. -/
def Obligations.EveryOpAnswersOnceAndFailureChangesNothing : Prop :=
  ∀ (i : Instr) (s : State), isOp i = true →
    ∃ (t : State) (r : Response), exec i s = .next t ∧ t.obs.responses = s.obs.responses ++ [r] ∧
      (r.ok = false → r.result = 0 ∧ t = s.respond false 0)

/-- The frame of the 21 OPs (R46, R309, R148), piece of state by piece of state: the OPs that may write it, and for the axes and the Value
Store also where. Every piece of State has its clause. -/
def Obligations.OpsTouchOnlyTheirTargets : Prop :=
  ∀ (i : Instr) (s t : State), isOp i = true → exec i s = .next t →
    t.params = s.params ∧ t.parser = s.parser ∧ t.handler = s.handler ∧ t.inbox = s.inbox ∧
    t.obs.tx = s.obs.tx ∧ t.obs.messages = s.obs.messages ∧ t.obs.steps = s.obs.steps ∧
    (∃ r : Response, t.obs.responses = s.obs.responses ++ [r]) ∧
    (t.registry ≠ s.registry → ∃ f, i = .setup f) ∧
    (t.store ≠ s.store → ∃ off, i = .saveSettings off) ∧
    (∀ o, t.store.read o ≠ s.store.read o →
      ∃ off : Word, i = .saveSettings off ∧ off.toNat ≤ o ∧ o < off.toNat + 11 * s.numAxes) ∧
    t.numAxes = s.numAxes ∧
    ∀ (j : Nat) (a : Axis) (b : Axis), s.axes[j]? = some a → t.axes[j]? = some b →
      b.build = a.build ∧ b.limit = a.limit ∧ b.step = a.step ∧
      (b.config.maxVelocity ≠ a.config.maxVelocity → (∃ x v, i = .setMaxvel x v) ∨ ∃ o, i = .restoreSettings o) ∧
      (b.config.acceleration ≠ a.config.acceleration → (∃ x v, i = .setAccel x v) ∨ ∃ o, i = .restoreSettings o) ∧
      (b.config.stopMode ≠ a.config.stopMode → (∃ x v, i = .setStopmode x v) ∨ ∃ o, i = .restoreSettings o) ∧
      (b.config.homeDirection ≠ a.config.homeDirection ∨ b.config.canHome ≠ a.config.canHome → ∃ o, i = .restoreSettings o) ∧
      (b.enable ≠ a.enable → ∃ x, (∃ v, i = .moveAbs x v ∨ i = .moveRel x v) ∨ i = .home x) ∧
      (b.position ≠ a.position → ∃ x, (∃ p, i = .setPos x p) ∨ i = .axisReset x) ∧
      (b.direction ≠ a.direction ∨ b.dir ≠ a.dir ∨ b.stepsRemaining ≠ a.stepsRemaining →
        ∃ x, (∃ v, i = .moveAbs x v ∨ i = .moveRel x v) ∨ i = .home x ∨ i = .axisReset x) ∧
      (b.runLength ≠ a.runLength ∨ b.riseLength ≠ a.riseLength ∨ b.error ≠ a.error →
        ∃ x, (∃ v, i = .moveAbs x v ∨ i = .moveRel x v) ∨ i = .axisReset x) ∧
      (b.state ≠ a.state →
        ∃ x, (∃ v, i = .moveAbs x v ∨ i = .moveRel x v) ∨ i = .home x ∨ i = .checkFinished x ∨ i = .axisReset x) ∧
      (b ≠ a → (∃ x : BitVec 8, opAxis i = some x ∧ x.toNat = j) ∨ ∃ o, i = .restoreSettings o)

/-! ## Lines, bytes and the handler port -/

/-- What the acceptance of a line writes and leaves (R238, R262); where the reference handler stands is not the block's. -/
structure Presents (s t : State) (type : Word) (fields : Vector Word 4) : Prop where
  parser    : t.parser = { s.parser with msg := { type := type, typeDefIndex := type, fields := fields }, handlerBusy := true }
  messages  : t.obs.messages = s.obs.messages ++ [{ type := type, typeDefIndex := type, fields := fields }]
  params    : t.params = s.params
  registry  : t.registry = s.registry
  axes      : t.axes = s.axes
  store     : t.store = s.store
  inbox     : t.inbox = s.inbox
  steps     : t.obs.steps = s.obs.steps
  tx        : t.obs.tx = s.obs.tx
  responses : t.obs.responses = s.obs.responses

/-- One reply line on TX and nothing else (R260). -/
structure RepliesOnly (s t : State) (marker text : List Byte) : Prop where
  tx        : t.obs.tx = s.obs.tx ++ marker ++ (if text = [] then [] else [0x20#8] ++ text) ++ [0x0D, 0x0A]
  params    : t.params = s.params
  registry  : t.registry = s.registry
  axes      : t.axes = s.axes
  parser    : t.parser = s.parser
  store     : t.store = s.store
  handler   : t.handler = s.handler
  inbox     : t.inbox = s.inbox
  steps     : t.obs.steps = s.obs.steps
  messages  : t.obs.messages = s.obs.messages
  responses : t.obs.responses = s.obs.responses

/-- The index of a parameter in the parameter table (R231). -/
def paramCode (p : Param) : Word := match p with | .maxvel => 0 | .accel => 1 | .stopmode => 2

/-- The six lines (R241-R246, R230, R231, R236, R238), while no Message is with the handler: each presents its Message; SET and GET with an
axis that is not valid get ERROR BAD AXIS. -/
def Obligations.LinesPresentTheirMessage : Prop :=
  ∀ s : State, s.parser.handlerBusy = false →
    (∀ axis target : Word, ∃ t : State, exec (.lineGo axis target) s = .next t ∧ Presents s t 0 #v[axis, target, 0, 0]) ∧
    (∀ (axis : Word) (param : Param) (value : Word), ∃ t : State, exec (.lineSet axis param value) s = .next t ∧
      (0 ≤ axis.toInt → axis.toInt < s.numAxes →
        Presents s t 1 #v[axis, paramCode param, value, 0]) ∧
      (axis.toInt < 0 ∨ (s.numAxes : Int) ≤ axis.toInt → RepliesOnly s t (ascii "ERROR") (ascii "BAD AXIS"))) ∧
    (∀ (axis : Word) (param : Param), ∃ t : State, exec (.lineGet axis param) s = .next t ∧
      (0 ≤ axis.toInt → axis.toInt < s.numAxes →
        Presents s t 2 #v[axis, paramCode param, 0, 0]) ∧
      (axis.toInt < 0 ∨ (s.numAxes : Int) ≤ axis.toInt → RepliesOnly s t (ascii "ERROR") (ascii "BAD AXIS"))) ∧
    (∀ axis : Word, ∃ t : State, exec (.lineHome axis) s = .next t ∧ Presents s t 3 #v[axis, 0, 0, 0]) ∧
    (∀ axis : Word, ∃ t : State, exec (.lineState axis) s = .next t ∧ Presents s t 4 #v[axis, 0, 0, 0]) ∧
    (∃ t : State, exec .lineAlive s = .next t ∧ Presents s t 5 #v[0, 0, 0, 0])

/-- RX of a byte that is no terminator, and of a terminator with nothing to hand over (R210, R211, R213-R216). -/
def Obligations.BytesAreAccumulated : Prop :=
  ∀ (s : State) (b : Byte), s.parser.handlerBusy = false →
    (0x20#8 ≤ b → b ≤ 0x7E#8 →
      (s.parser.discarding = true → exec (.rx b) s = .next s) ∧
      (s.parser.discarding = false → s.parser.buf.length < s.params.cmdBufLen →
        exec (.rx b) s = .next { s with parser := { s.parser with buf := s.parser.buf ++ [b] } }) ∧
      (s.parser.discarding = false → s.params.cmdBufLen ≤ s.parser.buf.length →
        ∃ t : State, exec (.rx b) s = .next t ∧
          RepliesOnly { s with parser := { s.parser with buf := [], discarding := true } } t (ascii "ERROR") (ascii "LINE TOO LONG"))) ∧
    (b < 0x20#8 ∨ 0x7E#8 < b → b ≠ 0x0D#8 → b ≠ 0x0A#8 → exec (.rx b) s = .next s) ∧
    (b = 0x0D#8 ∨ b = 0x0A#8 →
      (s.parser.discarding = true → exec (.rx b) s = .next { s with parser := { s.parser with discarding := false } }) ∧
      (s.parser.discarding = false → s.parser.buf = [] → exec (.rx b) s = .next s))

/-- The message-type table as R230 prints it: keyword, type, expected value kinds. -/
def lineShapes : List (List Byte × Word × List ValueKind) :=
  [ (ascii "GO",    0, [.integer, .integer]),
    (ascii "SET",   1, [.integer, .parameterName, .integer]),
    (ascii "GET",   2, [.integer, .parameterName]),
    (ascii "HOME",  3, [.integer]),
    (ascii "STATE", 4, [.integer]),
    (ascii "ALIVE", 5, []) ]

/-- The parameter names in the order of their enum, as R231 prints them. All are axis-scoped. -/
def paramNames : List (List Byte) := [ascii "MAXVEL", ascii "ACCEL", ascii "STOPMODE"]

/-- A value token is taken at a position of this kind and stored as v (R235, R236); `axis` is the first value token of the line. -/
def TakenAs (numAxes : Nat) (axis tok : List Byte) (kind : ValueKind) (v : Word) : Prop :=
  match kind with
  | .integer       => parseInteger tok = some v
  | .parameterName =>
    paramNames[v.toNat]? = some tok ∧ ∃ a : Word, parseInteger axis = some a ∧ 0 ≤ a.toInt ∧ a.toInt < numAxes

/-- A value token is refused at a position of this kind for this reason (R235, R236). -/
def RefusedFor (numAxes : Nat) (axis tok : List Byte) (kind : ValueKind) (e : ProtocolError) : Prop :=
  match kind with
  | .integer       => parseInteger tok = none ∧ e = .badInteger
  | .parameterName =>
    (tok ∉ paramNames ∧ e = .unknownParameter) ∨
      (tok ∈ paramNames ∧ (∃ a : Word, parseInteger axis = some a ∧ (a.toInt < 0 ∨ (numAxes : Int) ≤ a.toInt)) ∧ e = .badAxis)

/-- R232 with R234-R237: the tokens of a line are rejected for this reason, the first failure met from left to right: no token or an
unknown keyword; or, every value token before position j being taken, the token at j is missing, refused or in surplus. -/
def RejectedFor (numAxes : Nat) (toks : List (List Byte)) (e : ProtocolError) : Prop :=
  ((toks = [] ∨ ∃ keyword values, toks = keyword :: values ∧ ∀ row ∈ lineShapes, row.1 ≠ keyword) ∧ e = .unknownCommand) ∨
  ∃ row ∈ lineShapes, ∃ values, toks = row.1 :: values ∧ ∃ j : Nat,
    (∀ k < j, ∃ kind tok v, row.2.2[k]? = some kind ∧ values[k]? = some tok ∧ TakenAs numAxes (values.headD []) tok kind v) ∧
    ((∃ kind, row.2.2[j]? = some kind ∧ values[j]? = none ∧ e = .tooFewFields) ∨
      (∃ kind tok, row.2.2[j]? = some kind ∧ values[j]? = some tok ∧ RefusedFor numAxes (values.headD []) tok kind e) ∨
      (∃ tok, row.2.2[j]? = none ∧ values[j]? = some tok ∧ e = .tooManyFields))

/-- R232, R238, R240: the tokens of a line are its type's keyword and exactly the values its type expects; the fields are those values in
token order, the unused ones 0. -/
def AcceptedAs (numAxes : Nat) (toks : List (List Byte)) (type : Word) (fields : Vector Word 4) : Prop :=
  ∃ row ∈ lineShapes, ∃ values, toks = row.1 :: values ∧ type = row.2.1 ∧ values.length = row.2.2.length ∧
    ∀ j : Fin 4,
      (∀ kind tok, row.2.2[j.val]? = some kind → values[j.val]? = some tok →
        TakenAs numAxes (values.headD []) tok kind fields[j]) ∧
      (row.2.2.length ≤ j.val → fields[j] = 0)

/-- The reason strings (R300). -/
def reasonText (e : ProtocolError) : List Byte :=
  match e with
  | .unknownCommand => ascii "UNKNOWN COMMAND" | .badInteger => ascii "BAD INTEGER"
  | .unknownParameter => ascii "UNKNOWN PARAMETER" | .noAxis => ascii "NO AXIS" | .badAxis => ascii "BAD AXIS"
  | .tooFewFields => ascii "TOO FEW FIELDS" | .tooManyFields => ascii "TOO MANY FIELDS"
  | .lineTooLong => ascii "LINE TOO LONG"

/-- The parser rejects exactly the lines that R232 rejects, each for the reason of its first failure (R232, R234-R237, R240); and a terminator
that ends a rejected line sends one ERROR line with the reason and does nothing else but empty the buffer (R212, R239, R300). -/
def Obligations.RejectedLineGetsItsReason : Prop :=
  (∀ (numAxes : Nat) (line : List Byte) (e : ProtocolError),
    decode numAxes (.line line) = .error (.line e) ↔ RejectedFor numAxes (tokenize line) e) ∧
  (∀ (s : State) (b : Byte) (e : ProtocolError),
    s.parser.handlerBusy = false → s.parser.discarding = false → b = 0x0D#8 ∨ b = 0x0A#8 → s.parser.buf ≠ [] →
    decode s.numAxes (.line s.parser.buf) = .error (.line e) →
    ∃ t : State, exec (.rx b) s = .next t ∧
      RepliesOnly { s with parser := { s.parser with buf := [] } } t (ascii "ERROR") (reasonText e))

/-- Every non-empty line gets either one Message, the one its tokens say, and no reply, or one ERROR reply, with the reason of its first
failure, and no Message (R240, R232). -/
def Obligations.EveryLineGetsOneAnswer : Prop :=
  ∀ (s : State) (b : Byte),
    s.parser.handlerBusy = false → s.parser.discarding = false → b = 0x0D#8 ∨ b = 0x0A#8 → s.parser.buf ≠ [] →
    ∃ t : State, exec (.rx b) s = .next t ∧
      ((∃ (type : Word) (fields : Vector Word 4), AcceptedAs s.numAxes (tokenize s.parser.buf) type fields ∧
          Presents { s with parser := { s.parser with buf := [] } } t type fields) ∨
        (∃ e : ProtocolError, RejectedFor s.numAxes (tokenize s.parser.buf) e ∧
          RepliesOnly { s with parser := { s.parser with buf := [] } } t (ascii "ERROR") (reasonText e)))

/-- REPLY and HANDLER_DONE act only while a Message is with the handler (R260, R263, R265). -/
def Obligations.HandlerEventsActOnlyWhileBusy : Prop :=
  (∀ (s : State) (m : Marker) (text : List Byte),
    (s.parser.handlerBusy = true → ∃ t : State, exec (.reply m text) s = .next t ∧
      RepliesOnly s t (match m with | .ack => ascii "ACK" | .error => ascii "ERROR") text) ∧
    (s.parser.handlerBusy = false → exec (.reply m text) s = .next s)) ∧
  (∀ s : State,
    (s.parser.handlerBusy = true → exec .handlerDone s = .next { s with parser := { s.parser with handlerBusy := false } }) ∧
    (s.parser.handlerBusy = false → exec .handlerDone s = .next s))

/-- The Message is stable and no byte is consumed from its presentation to HANDLER_DONE (R62, R262). -/
def Obligations.MessageIsStableWhileHandled : Prop :=
  ∀ s t : State, step s = .next t → s.parser.handlerBusy = true → t.parser.handlerBusy = true →
    t.parser = s.parser ∧ t.obs.messages = s.obs.messages

/-- R217: bytes without a terminator, received from an empty buffer, leave exactly the printable ones in order, or, if there are more than
CMD_BUF_LEN of them, an empty buffer in discard mode and one ERROR LINE TOO LONG. -/
def Obligations.BufferHoldsTheLineSoFar : Prop :=
  ∀ (s : State) (bytes : List Byte),
    s.parser.handlerBusy = false → s.parser.discarding = false → s.parser.buf = [] →
    (∀ b ∈ bytes, b ≠ 0x0D#8 ∧ b ≠ 0x0A#8) →
    ((bytes.filter fun b => decide (0x20#8 ≤ b ∧ b ≤ 0x7E#8)).length ≤ s.params.cmdBufLen →
      rxRun bytes s = .next { s with parser := { s.parser with buf := bytes.filter fun b => decide (0x20#8 ≤ b ∧ b ≤ 0x7E#8) } }) ∧
    (s.params.cmdBufLen < (bytes.filter fun b => decide (0x20#8 ≤ b ∧ b ≤ 0x7E#8)).length →
      ∃ t : State, rxRun bytes s = .next t ∧
        RepliesOnly { s with parser := { s.parser with buf := [], discarding := true } } t (ascii "ERROR") (ascii "LINE TOO LONG"))

/-- The bytes of a line instruction's encoding and then a terminator, received from an empty buffer that can hold the line, execute that
instruction and nothing else (R212, R217, R232, R240). -/
def Obligations.TypedLineRunsItsInstruction : Prop :=
  ∀ (s : State) (i : Instr) (line : List Byte) (b : Byte),
    s.parser.handlerBusy = false → s.parser.discarding = false → s.parser.buf = [] →
    i.wellFormed s.numAxes = true → encode i = .line line → line.length ≤ s.params.cmdBufLen → b = 0x0D#8 ∨ b = 0x0A#8 →
    ∃ t : State, rxRun (line ++ [b]) s = .next t ∧ exec i s = .next t

/-- The value of a run of decimal digits (R78). -/
def decimalValue (digits : List (Fin 10)) : Nat := digits.foldl (fun v d => 10 * v + d.val) 0

/-- The bytes of a run of decimal digits. -/
def decimalBytes (digits : List (Fin 10)) : List Byte := digits.map fun d => BitVec.ofNat 8 (0x30 + d.val)

/-- R78, R235: an integer token is an optional '-' and at least one digit, with its decimal value in int32; nothing else is one. -/
def Obligations.IntegerTokensAreDecimalInt32 : Prop :=
  ∀ (tok : List Byte) (v : Word), parseInteger tok = some v ↔
    ∃ (negative : Bool) (digits : List (Fin 10)), digits ≠ [] ∧
      tok = (if negative then [0x2D#8] else []) ++ decimalBytes digits ∧
      v.toInt = (if negative then -(decimalValue digits : Int) else (decimalValue digits : Int))

/-- R77, R233: tokens of non-space bytes, with any number of spaces before, between (at least one) and after them, are found again; a line of
spaces has no token. -/
def Obligations.TokenizerFindsTheTokens : Prop :=
  (∀ n : Nat, tokenize (List.replicate n 0x20#8) = []) ∧
  ∀ (lead trail : Nat) (first : List Byte) (more : List (Nat × List Byte)),
    (first ≠ [] ∧ 0x20#8 ∉ first) → (∀ p ∈ more, p.2 ≠ [] ∧ 0x20#8 ∉ p.2) →
    tokenize (List.replicate lead 0x20#8 ++ first ++
      (more.flatMap fun p => List.replicate (p.1 + 1) 0x20#8 ++ p.2) ++ List.replicate trail 0x20#8) =
      first :: more.map fun p => p.2

/-! ## The tick -/

/-- TICK (R160): nothing before SETUP; after it, every axis that is not busy is left alone, and the step events are in ascending axis
index. -/
def Obligations.TickFansOutInOrder : Prop :=
  (∀ s : State, s.registry.configured = false → exec .tick s = .next s) ∧
  (∀ s : State, s.registry.configured = true → ∃ (t : State) (events : List StepEvent), exec .tick s = .next t ∧
    t.obs.steps = s.obs.steps ++ events ∧ (events.map fun e => e.axis).Pairwise (· < ·) ∧
    (∀ e ∈ events, ∃ a : Axis, s.axes[e.axis]? = some a ∧ e.direction = a.direction ∧
      (a.state = .moving ∨ a.state = .homingSeek ∨ a.state = .homingBackoff)) ∧
    t.numAxes = s.numAxes ∧
    ∀ (i : Nat) (a : Axis), s.axes[i]? = some a → a.state ≠ .moving → a.state ≠ .homingSeek → a.state ≠ .homingBackoff →
      t.axes[i]? = some a)

/-- The axis after one tick and the pulse it emitted are as given; a released drive is `EndOfMotion` (R165). -/
structure TicksTo (s t : State) (i : Nat) (b : Axis) (pulse : List Direction) : Prop where
  axis  : t.axes[i]? = some b
  steps : ∃ events : List StepEvent, t.obs.steps = s.obs.steps ++ events ∧ (stepsOf i events).map (fun e => e.direction) = pulse

/-- The position one step on in the axis's direction, at 32 bits (R161, R169). -/
def stepped (a : Axis) : Word := match a.direction with | .plus => a.position + 1 | .minus => a.position - 1

/-- ENABLE after an end of motion (R165): released under S_DISABLE, left as it is under S_HOLD. -/
def enableAtEnd (a : Axis) : Bool := match a.config.stopMode with | .disable => false | .hold => a.enable

/-- MovingTick (R161, R162, R165). A position that a pulse would move out of int32 wraps (log 12); no run reaches one. -/
def Obligations.MovingTickSpreadsPulses : Prop :=
  ∀ (s : State) (i : Nat) (a : Axis), s.registry.configured = true → s.axes[i]? = some a → a.state = .moving →
    ∃ t : State, exec .tick s = .next t ∧
      (a.riseLength = 0 ∨ a.stepsRemaining = 0 ∨ a.riseLength.toNat < a.runLength.toNat →
        TicksTo s t i { a with state := .error, stepsRemaining := 0, enable := enableAtEnd a } []) ∧
      (a.riseLength ≠ 0 → a.stepsRemaining ≠ 0 → a.runLength.toNat ≤ a.riseLength.toNat →
        (a.error.toNat + a.runLength.toNat < a.riseLength.toNat → ∃ e : Word, e.toNat = a.error.toNat + a.runLength.toNat ∧
          TicksTo s t i { a with error := e } []) ∧
        (a.riseLength.toNat ≤ a.error.toNat + a.runLength.toNat → ∃ e : Word,
          e.toNat = a.error.toNat + a.runLength.toNat - a.riseLength.toNat ∧
          (a.stepsRemaining ≠ 1 →
            TicksTo s t i { a with
              error := e, step := !a.step, stepsRemaining := a.stepsRemaining - 1,
              position := stepped a } [a.direction]) ∧
          (a.stepsRemaining = 1 →
            TicksTo s t i { a with
              error := e, step := !a.step, stepsRemaining := 0, state := .finishedMoving,
              enable := enableAtEnd a,
              position := stepped a } [a.direction])))

/-- LIMIT[i] as the block reads it (R35): 0 without a limit switch. -/
def limitReads (a : Axis) (level : Bool) : Prop := (if a.build.hasLimit then a.limit else false) = level

/-- SeekTick (R167, R169, R166). -/
def Obligations.SeekTickSamplesThenPulses : Prop :=
  ∀ (s : State) (i : Nat) (a : Axis), s.registry.configured = true → s.axes[i]? = some a → a.state = .homingSeek →
    ∃ t : State, exec .tick s = .next t ∧
      (a.stepsRemaining = 0 → TicksTo s t i { a with state := .error, enable := enableAtEnd a } []) ∧
      (a.stepsRemaining ≠ 0 → limitReads a true →
        TicksTo s t i { a with
          state := .homingBackoff, stepsRemaining := s.params.homeTickBudget,
          direction := if a.direction = .plus then .minus else .plus,
          dir := decide (a.direction = .minus) } []) ∧
      (a.stepsRemaining ≠ 0 → limitReads a false →
        (a.stepsRemaining ≠ 1 → TicksTo s t i { a with
          step := !a.step, stepsRemaining := a.stepsRemaining - 1,
          position := stepped a } [a.direction]) ∧
        (a.stepsRemaining = 1 → TicksTo s t i { a with
          step := !a.step, stepsRemaining := 0, state := .error,
          enable := enableAtEnd a,
          position := stepped a } [a.direction]))

/-- BackoffTick (R168, R169, R165, R166): LIMIT reading 0 ends the back-off, LIMIT reading 1 goes on with it. -/
def Obligations.BackoffTickStopsAtRelease : Prop :=
  ∀ (s : State) (i : Nat) (a : Axis), s.registry.configured = true → s.axes[i]? = some a → a.state = .homingBackoff →
    ∃ t : State, exec .tick s = .next t ∧
      (a.stepsRemaining = 0 → TicksTo s t i { a with state := .error, enable := enableAtEnd a } []) ∧
      (a.stepsRemaining ≠ 0 → limitReads a false →
        TicksTo s t i { a with state := .finishedHoming, position := 0, stepsRemaining := 0, enable := enableAtEnd a } []) ∧
      (a.stepsRemaining ≠ 0 → limitReads a true →
        (a.stepsRemaining ≠ 1 → TicksTo s t i { a with
          step := !a.step, stepsRemaining := a.stepsRemaining - 1,
          position := stepped a } [a.direction]) ∧
        (a.stepsRemaining = 1 → TicksTo s t i { a with
          step := !a.step, stepsRemaining := 0, state := .error,
          enable := enableAtEnd a,
          position := stepped a } [a.direction]))

/-- The frame of TICK (R33, R46, R160): it writes the run state and outputs of busy axes and the step log, and nothing else. -/
def Obligations.TickTouchesOnlyMotion : Prop :=
  ∀ s t : State, exec .tick s = .next t →
    s.SameSurroundings t ∧ t.obs.responses = s.obs.responses ∧ t.numAxes = s.numAxes ∧
    ∀ (i : Nat) (a : Axis) (b : Axis), s.axes[i]? = some a → t.axes[i]? = some b →
      a.SameFixtures b ∧ b.runLength = a.runLength ∧ b.riseLength = a.riseLength ∧
      (b.enable ≠ a.enable → a.config.stopMode = .disable ∧ b.state.busy = false) ∧
      (b.direction ≠ a.direction → a.state = .homingSeek ∧ b.state = .homingBackoff)

/-! ## Whole-machine rules -/

/-- Every step keeps the invariant of R27 and the ranges of R20-R38, whatever the inputs. -/
def Obligations.StepKeepsInvariant : Prop :=
  ∀ s t : State, s.Inv → step s = .next t → t.Inv

/-- R163: a move committed with D steps over r ticks has emitted floor(k*D/r) pulses after k ticks, all in its direction, and ends on tick r
at position + direction * D with error 0. -/
def Obligations.MoveEmitsItsPulsesEvenly : Prop :=
  ∀ (s : State) (i : Nat) (a : Axis) (D r k : Nat),
    s.registry.configured = true → s.axes[i]? = some a → a.state = .moving →
    a.runLength.toNat = D → a.riseLength.toNat = r → a.error = 0 → a.stepsRemaining.toNat = D → 1 ≤ D → D ≤ r →
    FitsInt32 (a.position.toInt + directionInt a.direction * (D : Int)) → k ≤ r →
    ∃ (t : State) (b : Axis) (events : List StepEvent), tickRun k s = .next t ∧ t.axes[i]? = some b ∧
      t.obs.steps = s.obs.steps ++ events ∧
      stepsOf i events = List.replicate (k * D / r) { axis := i, direction := a.direction } ∧
      b.position.toInt = a.position.toInt + directionInt a.direction * ((k * D / r : Nat) : Int) ∧
      b.error.toNat = k * D % r ∧ b.stepsRemaining.toNat = D - k * D / r ∧
      (k < r → b.state = .moving) ∧ (k = r → b.state = .finishedMoving ∧ b.error = 0)

/-- After k ticks, axis i has emitted this many pulses. -/
def PulsesAfter (s : State) (i k count : Nat) : Prop :=
  ∃ (t : State) (events : List StepEvent), tickRun k s = .next t ∧ t.obs.steps = s.obs.steps ++ events ∧
    (stepsOf i events).length = count

/-- R163, R164: pulse j of a move falls on tick ceil(j*r/D), and the next one floor(r/D) or ceil(r/D) ticks later. -/
def Obligations.PulsesAreSpacedEvenly : Prop :=
  ∀ (s : State) (i : Nat) (a : Axis) (D r j m n : Nat),
    s.registry.configured = true → s.axes[i]? = some a → a.state = .moving →
    a.runLength.toNat = D → a.riseLength.toNat = r → a.error = 0 → a.stepsRemaining.toNat = D → 1 ≤ D → D ≤ r →
    FitsInt32 (a.position.toInt + directionInt a.direction * (D : Int)) → 1 ≤ j → j < D →
    m = (j * r + D - 1) / D → n = ((j + 1) * r + D - 1) / D →
    PulsesAfter s i (m - 1) (j - 1) ∧ PulsesAfter s i m j ∧ PulsesAfter s i (n - 1) j ∧ PulsesAfter s i n (j + 1) ∧
      m < n ∧ (n - m = r / D ∨ n - m = (r + D - 1) / D)

/-- R303: from the state HOME leaves, whatever LIMIT[i] reads, homing has ended after 2 * HOME_TICK_BUDGET ticks. -/
def Obligations.HomingEndsWithinTwoBudgets : Prop :=
  ∀ (s : State) (i : Nat) (a : Axis) (levels : List Bool),
    s.registry.configured = true → s.axes[i]? = some a → a.state = .homingSeek →
    a.stepsRemaining = s.params.homeTickBudget → s.params.homeTickBudget ≠ 0 →
    2 * s.params.homeTickBudget.toNat ≤ levels.length →
    ∃ (t : State) (b : Axis), limitTickRun i levels s = .next t ∧ t.axes[i]? = some b ∧
      (b.state = .error ∨ (b.state = .finishedHoming ∧ b.position = 0))

/-- R114: an instruction moves an axis along an arc of the table or leaves its state; an OP moves only the axis it addresses. -/
def Obligations.TransitionsFollowTheTable : Prop :=
  ∀ (i : Instr) (s t : State), exec i s = .next t → ∀ (j : Nat) (a : Axis) (b : Axis), s.axes[j]? = some a → t.axes[j]? = some b →
    b.state = a.state ∨
      (arc i a.state b.state = true ∧ (i = .tick ∨ ∃ x : BitVec 8, opAxis i = some x ∧ x.toNat = j))

/-- R33, R112, R336: no instruction but TICK changes anything of a busy axis. -/
def Obligations.OnlyTicksChangeABusyAxis : Prop :=
  ∀ (i : Instr) (s t : State), exec i s = .next t → i ≠ .tick →
    ∀ (j : Nat) (a : Axis), s.axes[j]? = some a → a.state = .moving ∨ a.state = .homingSeek ∨ a.state = .homingBackoff → t.axes[j]? = some a

/-- R148, R31, R32: no instruction but RESTORE_SETTINGS writes homeDirection or canHome. -/
def Obligations.OnlyRestoreWritesHomeSettings : Prop :=
  ∀ (i : Instr) (s t : State), exec i s = .next t → (∀ o, i ≠ .restoreSettings o) →
    ∀ (j : Nat) (a b : Axis), s.axes[j]? = some a → t.axes[j]? = some b →
      b.config.homeDirection = a.config.homeDirection ∧ b.config.canHome = a.config.canHome

/-- R107, R336: a move, home, setter, SET_POS or AXIS_RESET of a busy axis, and a restore while any axis is busy, fails. -/
def Obligations.BusyRequestsFail : Prop :=
  ∀ (s : State) (axis : BitVec 8) (a : Axis) (v : Word), s.axes[axis.toNat]? = some a →
    a.state = .moving ∨ a.state = .homingSeek ∨ a.state = .homingBackoff →
    ∀ i ∈ [.moveAbs axis v, .moveRel axis v, .home axis, .setPos axis v, .axisReset axis, .setMaxvel axis v, .setAccel axis v,
      .setStopmode axis v, .restoreSettings v], exec i s = .next (s.respond false 0)

/-- R108: the duration a move returns is at least the time at maxVelocity: RESULT * V >= F * D. -/
def Obligations.DurationIsAtLeastStraightLine : Prop :=
  ∀ (s t : State) (axis : BitVec 8) (target r : Word) (a : Axis), s.axes[axis.toNat]? = some a →
    exec (.moveAbs axis target) s = .next t → s.Answered t true r →
    s.registry.frequency.toNat * (target.toInt - a.position.toInt).natAbs ≤ r.toNat * a.config.maxVelocity.toInt.toNat

/-- R101, R102 (kinematics of general knowledge G1, rounding of decision D10): the trapezoid's duration is the exact one rounded up, the
triangle's is the least n with n*n*A >= 4*F*F*D, both are at least 1, and at the boundary the two agree. -/
def Obligations.ProfileTicksIsTheLeastDuration : Prop :=
  ∀ D V A F : Nat, 1 ≤ D → 1 ≤ V → 1 ≤ A → 1 ≤ F →
    1 ≤ profileTicks D V A F ∧
    (V * V ≤ A * D → IsLeast { n | F * (A * D + V * V) ≤ n * (A * V) } (profileTicks D V A F)) ∧
    (A * D ≤ V * V → IsLeast { n | 4 * F * F * D ≤ n * n * A } (profileTicks D V A F))

/-- R301, R302: every instruction answers a next state in every state, and so does every step whose inputs are inside the ports' alphabet
(R344). -/
def Obligations.NothingStopsTheBlock : Prop :=
  (∀ (i : Instr) (s : State), ∃ t : State, exec i s = .next t) ∧
  (∀ s : State, (∀ i ∈ s.inbox, i.legal = true) → ∃ t : State, step s = .next t)

/-- R312: what an OP answers and does to its axis, and what a tick does to an axis, depends on no other axis. -/
def Obligations.AxesAreIndependent : Prop :=
  ∀ (s t s' t' : State) (i : Instr) (j : Nat),
    (i = .tick ∨ ∃ x : BitVec 8, opAxis i = some x ∧ x.toNat = j) →
    t.registry = s.registry → t.params = s.params → t.axes[j]? = s.axes[j]? →
    exec i s = .next s' → exec i t = .next t' →
    t'.axes[j]? = s'.axes[j]? ∧
    (i ≠ .tick → ∃ r : Response, s'.obs.responses = s.obs.responses ++ [r] ∧ t'.obs.responses = t.obs.responses ++ [r])

/-- The build is never written (R3, R21). -/
def Obligations.BuildIsNeverWritten : Prop :=
  ∀ s t : State, step s = .next t →
    t.params = s.params ∧ (t.axes.map fun a => a.build) = s.axes.map fun a => a.build

/-- R45, D52: without a power-on pending, the observation only grows: nothing on TX, in the step log, presented or answered is taken back. -/
def Obligations.ObservationOnlyGrows : Prop :=
  ∀ s t : State, Input.powerOn ∉ s.inbox → step s = .next t →
    s.obs.steps <+: t.obs.steps ∧ s.obs.tx <+: t.obs.tx ∧ s.obs.messages <+: t.obs.messages ∧
    s.obs.responses <+: t.obs.responses

/-- R334: in a Quiescent state every axis is in one of the four states at rest and a TICK changes nothing; with nothing else pending either,
a step changes nothing (log 3). -/
def Obligations.QuiescentStateKeepsStill : Prop :=
  ∀ s : State, s.Quiescent →
    (∀ a ∈ s.axes, a.state = .ready ∨ a.state = .finishedMoving ∨ a.state = .finishedHoming ∨ a.state = .error) ∧
    exec .tick s = .next s ∧ (s.inbox = [] → step s = .next s)

/-! ## The reference handler -/

/-- R276: from a Message just presented, the reference handler (log 13) gives control back within six of its steps, having sent exactly one
reply line: one marker, one text of printable bytes (R260), one CR LF. -/
def Obligations.ReferenceHandlerRepliesOnce : Prop :=
  ∀ s : State, s.parser.handlerBusy = true → s.handler = .idle → s.parser.msg.type.toNat ≤ 5 →
    ∃ (k : Nat) (t : State) (m : Marker) (text : List Byte), k ≤ 6 ∧ handlerRun k s = .next t ∧ t.parser = { s.parser with handlerBusy := false } ∧ t.handler = .idle ∧
      text.all printable = true ∧ t.obs.tx = s.obs.tx ++ replyBytes m text ∧ t.obs.messages = s.obs.messages ∧ t.registry = s.registry ∧ t.store = s.store

/-- R270: a GO for a valid axis whose move is acceptable once its finished latch is consumed starts the move and replies ACK with the duration
in decimal. -/
def Obligations.ReferenceHandlerRunsGo : Prop :=
  ∀ (s : State) (i : Nat) (a : Axis) (target : Word),
    s.parser.handlerBusy = true → s.handler = .idle → s.parser.msg.type = 0 →
    s.parser.msg.fields = #v[BitVec.ofNat 32 i, target, 0, 0] → i ≤ 255 → s.axes[i]? = some a →
    a.state = .ready ∨ a.state = .finishedMoving ∨ a.state = .finishedHoming →
    s.MayMove { a with state := .ready } target.toInt →
    ∃ (t : State) (b : Axis), handlerRun 5 s = .next t ∧ t.parser.handlerBusy = false ∧ t.axes[i]? = some b ∧ b.state = .moving ∧
      b.runLength.toNat = (target.toInt - a.position.toInt).natAbs ∧
      t.obs.tx = s.obs.tx ++ ascii "ACK" ++ [0x20#8] ++ decNat b.riseLength.toNat ++ [0x0D, 0x0A]

/-- R271, R272: a SET for a valid axis replies ACK and writes the parameter where the setter accepts it, else ERROR REJECTED with the axis
as it was; a GET replies ACK with the parameter in decimal and changes no axis. -/
def Obligations.ReferenceHandlerSetsAndGets : Prop :=
  ∀ (s : State) (i : Nat) (a : Axis) (p : Param),
    s.parser.handlerBusy = true → s.handler = .idle → i ≤ 255 → s.axes[i]? = some a →
    (∀ v : Word, s.parser.msg.type = 1 → s.parser.msg.fields = #v[BitVec.ofNat 32 i, paramCode p, v, 0] →
      ∃ t : State, handlerRun 3 s = .next t ∧ t.parser.handlerBusy = false ∧
        (a.state ≠ .moving → a.state ≠ .homingSeek → a.state ≠ .homingBackoff →
          (match p with | .maxvel | .accel => 0 < v.toInt | .stopmode => v = 0 ∨ v = 1) →
          t.obs.tx = s.obs.tx ++ ascii "ACK" ++ [0x0D, 0x0A] ∧
          t.axes[i]? = some { a with config :=
            match p with
            | .maxvel   => { a.config with maxVelocity := v }
            | .accel    => { a.config with acceleration := v }
            | .stopmode => { a.config with stopMode := if v = 0 then .hold else .disable } }) ∧
        (a.state = .moving ∨ a.state = .homingSeek ∨ a.state = .homingBackoff ∨
            ¬ (match p with | .maxvel | .accel => 0 < v.toInt | .stopmode => v = 0 ∨ v = 1) →
          t.obs.tx = s.obs.tx ++ ascii "ERROR REJECTED" ++ [0x0D, 0x0A] ∧ t.axes = s.axes)) ∧
    (s.parser.msg.type = 2 → s.parser.msg.fields = #v[BitVec.ofNat 32 i, paramCode p, 0, 0] →
      ∃ t : State, handlerRun 3 s = .next t ∧ t.parser.handlerBusy = false ∧ t.axes = s.axes ∧
        t.obs.tx = s.obs.tx ++ ascii "ACK" ++ [0x20#8] ++
          decInt (match p with
            | .maxvel   => a.config.maxVelocity
            | .accel    => a.config.acceleration
            | .stopmode => if a.config.stopMode = .hold then 0 else 1) ++ [0x0D, 0x0A])

/-- R274: a STATE for a valid axis replies ACK with the state code and the position, and consumes a finished latch. -/
def Obligations.ReferenceHandlerReportsState : Prop :=
  ∀ (s : State) (i : Nat) (a : Axis),
    s.parser.handlerBusy = true → s.handler = .idle → s.parser.msg.type = 4 →
    s.parser.msg.fields = #v[BitVec.ofNat 32 i, 0, 0, 0] → i ≤ 255 → s.axes[i]? = some a →
    ∃ t : State, handlerRun (if a.state = .finishedMoving ∨ a.state = .finishedHoming then 6 else 5) s = .next t ∧
      t.parser.handlerBusy = false ∧
      t.obs.tx = s.obs.tx ++ ascii "ACK" ++ [0x20#8] ++
        (match a.state with
         | .ready => ascii "0" | .moving => ascii "1" | .finishedMoving => ascii "2" | .homingSeek => ascii "3"
         | .homingBackoff => ascii "4" | .finishedHoming => ascii "5" | .error => ascii "6") ++
        [0x20#8] ++ decInt a.position ++ [0x0D, 0x0A] ∧
      t.axes[i]? = some (if a.state = .finishedMoving ∨ a.state = .finishedHoming then { a with state := .ready } else a)

/-- R273: a HOME for a valid axis that may home once its finished latch is consumed starts homing and replies ACK; with canHome = 0 it
replies ERROR REJECTED, and the axis is in no homing state. -/
def Obligations.ReferenceHandlerRunsHome : Prop :=
  ∀ (s : State) (i : Nat) (a : Axis),
    s.parser.handlerBusy = true → s.handler = .idle → s.parser.msg.type = 3 →
    s.parser.msg.fields = #v[BitVec.ofNat 32 i, 0, 0, 0] → i ≤ 255 → s.axes[i]? = some a →
    a.state = .ready ∨ a.state = .finishedMoving ∨ a.state = .finishedHoming → s.registry.configured = true →
    ∃ (t : State) (b : Axis), handlerRun 5 s = .next t ∧ t.parser.handlerBusy = false ∧ t.axes[i]? = some b ∧
      b.position = a.position ∧ b.config = a.config ∧
      (a.config.canHome = true → b.state = .homingSeek ∧ b.stepsRemaining = s.params.homeTickBudget ∧
        t.obs.tx = s.obs.tx ++ ascii "ACK" ++ [0x0D, 0x0A]) ∧
      (a.config.canHome = false → b.state = .ready ∧ t.obs.tx = s.obs.tx ++ ascii "ERROR REJECTED" ++ [0x0D, 0x0A])
end

