-- ==== Sys2Proof/Laws/Decode.lean ====
section
/-! SUPPORT. Laws/Decode.lean: the fields of an op word, the decimal text of a number and the tokens of a line are read back as they were
written. -/

namespace Sys2Proof

/-! ### Op words -/

theorem opWord_toNat (op axis : BitVec 8) : (op ++ axis : OpWord).toNat = op.toNat * 256 + axis.toNat := by
  have := axis.isLt
  rw [BitVec.toNat_append, ← Nat.shiftLeft_add_eq_or_of_lt (by omega), Nat.shiftLeft_eq]

@[simp] theorem opcodeField_append (op axis : BitVec 8) : opcodeField (op ++ axis) = op := by
  apply BitVec.eq_of_toNat_eq
  have := op.isLt
  have := axis.isLt
  simp only [opcodeField, BitVec.extractLsb'_toNat, opWord_toNat, Nat.shiftRight_eq_div_pow]
  omega

@[simp] theorem axisField_append (op axis : BitVec 8) : axisField (op ++ axis) = axis := by
  apply BitVec.eq_of_toNat_eq
  have := axis.isLt
  simp only [axisField, BitVec.extractLsb'_toNat, opWord_toNat, Nat.shiftRight_eq_div_pow]
  omega

/-- The opcode map as a function of the opcode alone (R72). -/
theorem decodeOp_append (op axis : BitVec 8) (v : Word) :
    decodeOp (op ++ axis) v =
      match opTable.find? (fun row => row.1 == op) with
      | some row => .ok (row.2 axis v)
      | none     => .error (.reservedOpcode op) := by
  rw [decodeOp, opcodeField_append, axisField_append] <;> rfl

/-! ### Decimal text -/

theorem digitsValue_append (bs cs : List Byte) (v : Nat) :
    digitsValue v (bs ++ cs) = (digitsValue v bs).bind fun w => digitsValue w cs := by
  induction bs generalizing v with
  | nil => rfl
  | cons b bs ih =>
    simp only [List.cons_append, digitsValue]
    split
    · exact ih _
    · rfl

/-- A decimal digit as a byte. -/
theorem digitsValue_digit (v d : Nat) (hd : d < 10) : digitsValue v [BitVec.ofNat 8 (48 + d)] = some (10 * v + d) := by
  have h : d = 0 ∨ d = 1 ∨ d = 2 ∨ d = 3 ∨ d = 4 ∨ d = 5 ∨ d = 6 ∨ d = 7 ∨ d = 8 ∨ d = 9 := by omega
  rcases h with rfl | rfl | rfl | rfl | rfl | rfl | rfl | rfl | rfl | rfl <;> simp [digitsValue]

theorem digitsValue_digitsRev (fuel n : Nat) (h : n < 10 ^ (fuel + 1)) :
    digitsValue 0 (digitsRev (fuel + 1) n).reverse = some n := by
  induction fuel generalizing n with
  | zero =>
    have hn : n < 10 := by simpa using h
    have h1 : n / 10 = 0 := by omega
    have h2 : n % 10 = n := by omega
    simp only [digitsRev, h1, h2, if_true, List.reverse_singleton]
    simpa using digitsValue_digit 0 n hn
  | succ fuel ih =>
    rw [digitsRev]
    split
    · next h1 =>
      have h2 : n % 10 = n := by omega
      simp only [h2, List.reverse_singleton]
      simpa using digitsValue_digit 0 n (by omega)
    · have hlt : n / 10 < 10 ^ (fuel + 1) := by
        rw [Nat.div_lt_iff_lt_mul (by norm_num)]
        simpa [pow_succ] using h
      rw [List.reverse_cons, digitsValue_append, ih _ hlt, Option.bind_some,
        digitsValue_digit _ _ (Nat.mod_lt _ (by norm_num))]
      congr 1
      omega

/-- A decimal text is read back (R78, decision D53). -/
theorem digitsValue_decNat (n : Nat) (h : n < 10 ^ 10) : digitsValue 0 (decNat n) = some n :=
  digitsValue_digitsRev 9 n h

theorem digitsRev_ne_nil (fuel n : Nat) : digitsRev (fuel + 1) n ≠ [] := by simp [digitsRev]

theorem decNat_ne_nil (n : Nat) : decNat n ≠ [] := by simp [decNat, digitsRev_ne_nil]

/-- Every byte of a decimal text is a digit. -/
theorem digitsRev_digit (fuel n : Nat) (b : Byte) (h : b ∈ digitsRev fuel n) : 0x30#8 ≤ b ∧ b ≤ 0x39#8 := by
  induction fuel generalizing n with
  | zero => simp [digitsRev] at h
  | succ fuel ih =>
    rw [digitsRev] at h
    rcases List.mem_cons.mp h with rfl | h
    · have hd : n % 10 < 10 := Nat.mod_lt _ (by norm_num)
      generalize n % 10 = d at hd
      have h : d = 0 ∨ d = 1 ∨ d = 2 ∨ d = 3 ∨ d = 4 ∨ d = 5 ∨ d = 6 ∨ d = 7 ∨ d = 8 ∨ d = 9 := by omega
      rcases h with rfl | rfl | rfl | rfl | rfl | rfl | rfl | rfl | rfl | rfl <;> decide
    · split at h
      · simp at h
      · exact ih _ h

theorem decNat_digit (n : Nat) (b : Byte) (h : b ∈ decNat n) : 0x30#8 ≤ b ∧ b ≤ 0x39#8 :=
  digitsRev_digit 10 n b (by simpa [decNat] using h)

theorem decNat_printable (n : Nat) : (decNat n).all printable = true := by
  rw [List.all_eq_true]
  intro b hb
  obtain ⟨h1, h2⟩ := decNat_digit n b hb
  simp only [printable, Bool.and_eq_true, decide_eq_true_eq]
  bv_omega

theorem decNat_head_ne_minus (n : Nat) : (decNat n).head? ≠ some 0x2D#8 := by
  intro h
  have hm : (0x2D#8) ∈ decNat n := by
    cases hd : decNat n with
    | nil => simp [hd] at h
    | cons b bs => simp [hd] at h; simp [h]
  exact absurd (decNat_digit n _ hm) (by decide)

/-- A text written by `decInt` is a token: not empty, no space, printable. -/
theorem decInt_ne_nil (w : Word) : decInt w ≠ [] := by
  unfold decInt
  split
  · simp
  · exact decNat_ne_nil _

theorem decInt_no_space (w : Word) : 0x20#8 ∉ decInt w := by
  have h (n : Nat) : 0x20#8 ∉ decNat n := fun h => absurd (decNat_digit n _ h) (by decide)
  unfold decInt
  split
  · simp [h]
  · exact h _

theorem decInt_printable (w : Word) : (decInt w).all printable = true := by
  unfold decInt
  split
  · rw [List.all_cons, decNat_printable]
    decide
  · exact decNat_printable _

theorem fitsInt32_toInt (w : Word) : FitsInt32 w.toInt := by
  have h1 := BitVec.le_toInt w
  have h2 := BitVec.toInt_lt (x := w)
  constructor <;> norm_num at h1 h2 ⊢ <;> omega

theorem narrowInt32_toInt (w : Word) : narrowInt32 w.toInt = some w := by
  simp [narrowInt32, fitsInt32_toInt w, BitVec.ofInt_toInt]

theorem natAbs_toInt_lt (w : Word) : w.toInt.natAbs < 10 ^ 10 := by
  have := fitsInt32_toInt w
  norm_num
  omega

/-- An integer token with a sign (R235). -/
theorem parseInteger_minus (rest : List Byte) :
    parseInteger (0x2D#8 :: rest) =
      if rest = [] then none else (digitsValue 0 rest).bind fun v => narrowInt32 (-(v : Int)) := by
  unfold parseInteger
  cases rest with
  | nil => rfl
  | cons b bs => simp; cases digitsValue 0 (b :: bs) <;> rfl

/-- An integer token without a sign (R235). -/
theorem parseInteger_plain {tok : List Byte} (h : tok.head? ≠ some 0x2D#8) :
    parseInteger tok = if tok = [] then none else (digitsValue 0 tok).bind fun v => narrowInt32 (v : Int) := by
  unfold parseInteger
  cases tok with
  | nil => rfl
  | cons b bs =>
    simp only [if_neg h]
    cases digitsValue 0 (b :: bs) <;> rfl

/-- An int32 written in decimal is read back (R78, R235). -/
theorem parseInteger_decInt (w : Word) : parseInteger (decInt w) = some w := by
  unfold decInt
  split
  · next h =>
    have hne := decNat_ne_nil w.toInt.natAbs
    have hz : -((w.toInt.natAbs : Int)) = w.toInt := by omega
    simp [parseInteger, hne, digitsValue_decNat _ (natAbs_toInt_lt w)]
    have hz' : -|w.toInt| = w.toInt := by rw [abs_of_neg h]; omega
    rw [hz']; exact narrowInt32_toInt w
  · next h =>
    have hne := decNat_ne_nil w.toInt.natAbs
    have hh := decNat_head_ne_minus w.toInt.natAbs
    simp [parseInteger, hh, hne, digitsValue_decNat _ (natAbs_toInt_lt w)]
    have hz' : |w.toInt| = w.toInt := abs_of_nonneg (by omega)
    rw [hz']; exact narrowInt32_toInt w

/-! ### Tokens -/

theorem tokenizeFrom_append_space (tok cur rest : List Byte) (hs : 0x20#8 ∉ tok) (hne : cur ++ tok ≠ []) :
    tokenizeFrom cur (tok ++ 0x20#8 :: rest) = (cur ++ tok) :: tokenizeFrom [] rest := by
  induction tok generalizing cur with
  | nil =>
    have hc : cur ≠ [] := by simpa using hne
    simp [tokenizeFrom, hc]
  | cons b tok ih =>
    have hb : b ≠ 0x20#8 := fun h => hs (by simp [h])
    have hs' : 0x20#8 ∉ tok := fun h => hs (List.mem_cons_of_mem _ h)
    simp only [List.cons_append, tokenizeFrom, hb, if_false]
    rw [ih (cur ++ [b]) hs' (by simp)]
    simp

theorem tokenizeFrom_token (tok cur : List Byte) (hs : 0x20#8 ∉ tok) (hne : cur ++ tok ≠ []) :
    tokenizeFrom cur tok = [cur ++ tok] := by
  induction tok generalizing cur with
  | nil =>
    have hc : cur ≠ [] := by simpa using hne
    simp [tokenizeFrom, hc]
  | cons b tok ih =>
    have hb : b ≠ 0x20#8 := fun h => hs (by simp [h])
    have hs' : 0x20#8 ∉ tok := fun h => hs (List.mem_cons_of_mem _ h)
    simp only [tokenizeFrom, hb, if_false]
    rw [ih (cur ++ [b]) hs' (by simp)]
    simp

/-- Tokens joined by single spaces are found again (R233). -/
theorem tokenize_joinTokens (toks : List (List Byte)) (h : ∀ t ∈ toks, t ≠ [] ∧ 0x20#8 ∉ t) :
    tokenize (joinTokens toks) = toks := by
  unfold tokenize
  induction toks with
  | nil => rfl
  | cons t ts ih =>
    have ht := h t List.mem_cons_self
    have hts : ∀ u ∈ ts, u ≠ [] ∧ 0x20#8 ∉ u := fun u hu => h u (List.mem_cons_of_mem _ hu)
    cases ts with
    | nil => simpa [joinTokens] using tokenizeFrom_token t [] ht.2 (by simpa using ht.1)
    | cons u us =>
      simp only [joinTokens]
      rw [tokenizeFrom_append_space t [] _ ht.2 (by simpa using ht.1), ih hts]
      simp

/-- R234: the table entry with exactly this keyword. -/
theorem lookupType_eq_some {tok : List Byte} {e : MessageEntry} :
    lookupType tok = some e ↔ e ∈ messageTable ∧ e.keyword = tok := by
  constructor
  · exact fun h => ⟨List.mem_of_find?_eq_some h, by simpa using List.find?_some h⟩
  · rintro ⟨hm, rfl⟩
    revert hm
    revert e
    decide

/-- R236: the table entry with exactly this keyword. -/
theorem lookupParam_eq_some {tok : List Byte} {e : ParamEntry} :
    lookupParam tok = some e ↔ e ∈ paramTable ∧ e.keyword = tok := by
  constructor
  · exact fun h => ⟨List.mem_of_find?_eq_some h, by simpa using List.find?_some h⟩
  · rintro ⟨hm, rfl⟩
    revert hm
    revert e
    decide

theorem lookupParam_keyword (p : Param) :
    lookupParam p.keyword = some { param := p, keyword := p.keyword, axisScoped := true } := by
  cases p <;> decide

theorem lookupType_keyword (t : LineType) :
    (lookupType t.keyword).map (fun e => e.type) = some t := by
  cases t <;> decide

theorem Param.ofEnum_enum (p : Param) : Param.ofEnum p.enum = p := by cases p <;> decide

theorem Param.keyword_token (p : Param) : p.keyword ≠ [] ∧ 0x20#8 ∉ p.keyword := by cases p <;> decide

theorem LineType.keyword_token (t : LineType) : t.keyword ≠ [] ∧ 0x20#8 ∉ t.keyword := by cases t <;> decide

theorem decInt_token (w : Word) : decInt w ≠ [] ∧ 0x20#8 ∉ decInt w := ⟨decInt_ne_nil w, decInt_no_space w⟩

end Sys2Proof
end

