-- ==== Sys2Proof/Laws/State.lean ====
section
/-! SUPPORT. Laws/State.lean: what each update of the state or of an axis leaves in each field, so that no proof unfolds a record. -/

namespace Sys2Proof.Machine

@[simp] theorem State.respond_params (s : State) (ok : Bool) (v : Word) : (s.respond ok v).params = s.params := rfl
@[simp] theorem State.respond_registry (s : State) (ok : Bool) (v : Word) : (s.respond ok v).registry = s.registry := rfl
@[simp] theorem State.respond_axes (s : State) (ok : Bool) (v : Word) : (s.respond ok v).axes = s.axes := rfl
@[simp] theorem State.respond_parser (s : State) (ok : Bool) (v : Word) : (s.respond ok v).parser = s.parser := rfl
@[simp] theorem State.respond_store (s : State) (ok : Bool) (v : Word) : (s.respond ok v).store = s.store := rfl
@[simp] theorem State.respond_handler (s : State) (ok : Bool) (v : Word) : (s.respond ok v).handler = s.handler := rfl
@[simp] theorem State.respond_inbox (s : State) (ok : Bool) (v : Word) : (s.respond ok v).inbox = s.inbox := rfl
@[simp] theorem State.respond_obs_steps (s : State) (ok : Bool) (v : Word) : (s.respond ok v).obs.steps = s.obs.steps := rfl
@[simp] theorem State.respond_obs_tx (s : State) (ok : Bool) (v : Word) : (s.respond ok v).obs.tx = s.obs.tx := rfl
@[simp] theorem State.respond_obs_messages (s : State) (ok : Bool) (v : Word) : (s.respond ok v).obs.messages = s.obs.messages := rfl
@[simp] theorem State.respond_obs_responses (s : State) (ok : Bool) (v : Word) : (s.respond ok v).obs.responses = s.obs.responses ++ [{ ok := ok, result := v }] := rfl

@[simp] theorem State.setAxis_params (s : State) (i : Nat) (a : Axis) : (s.setAxis i a).params = s.params := rfl
@[simp] theorem State.setAxis_registry (s : State) (i : Nat) (a : Axis) : (s.setAxis i a).registry = s.registry := rfl
@[simp] theorem State.setAxis_axes (s : State) (i : Nat) (a : Axis) : (s.setAxis i a).axes = s.axes.set i a := rfl
@[simp] theorem State.setAxis_parser (s : State) (i : Nat) (a : Axis) : (s.setAxis i a).parser = s.parser := rfl
@[simp] theorem State.setAxis_store (s : State) (i : Nat) (a : Axis) : (s.setAxis i a).store = s.store := rfl
@[simp] theorem State.setAxis_handler (s : State) (i : Nat) (a : Axis) : (s.setAxis i a).handler = s.handler := rfl
@[simp] theorem State.setAxis_inbox (s : State) (i : Nat) (a : Axis) : (s.setAxis i a).inbox = s.inbox := rfl
@[simp] theorem State.setAxis_obs_steps (s : State) (i : Nat) (a : Axis) : (s.setAxis i a).obs.steps = s.obs.steps := rfl
@[simp] theorem State.setAxis_obs_tx (s : State) (i : Nat) (a : Axis) : (s.setAxis i a).obs.tx = s.obs.tx := rfl
@[simp] theorem State.setAxis_obs_messages (s : State) (i : Nat) (a : Axis) : (s.setAxis i a).obs.messages = s.obs.messages := rfl
@[simp] theorem State.setAxis_obs_responses (s : State) (i : Nat) (a : Axis) : (s.setAxis i a).obs.responses = s.obs.responses := rfl

@[simp] theorem State.tx_params (s : State) (bytes : List Byte) : (s.tx bytes).params = s.params := rfl
@[simp] theorem State.tx_registry (s : State) (bytes : List Byte) : (s.tx bytes).registry = s.registry := rfl
@[simp] theorem State.tx_axes (s : State) (bytes : List Byte) : (s.tx bytes).axes = s.axes := rfl
@[simp] theorem State.tx_parser (s : State) (bytes : List Byte) : (s.tx bytes).parser = s.parser := rfl
@[simp] theorem State.tx_store (s : State) (bytes : List Byte) : (s.tx bytes).store = s.store := rfl
@[simp] theorem State.tx_handler (s : State) (bytes : List Byte) : (s.tx bytes).handler = s.handler := rfl
@[simp] theorem State.tx_inbox (s : State) (bytes : List Byte) : (s.tx bytes).inbox = s.inbox := rfl
@[simp] theorem State.tx_obs_steps (s : State) (bytes : List Byte) : (s.tx bytes).obs.steps = s.obs.steps := rfl
@[simp] theorem State.tx_obs_tx (s : State) (bytes : List Byte) : (s.tx bytes).obs.tx = s.obs.tx ++ bytes := rfl
@[simp] theorem State.tx_obs_messages (s : State) (bytes : List Byte) : (s.tx bytes).obs.messages = s.obs.messages := rfl
@[simp] theorem State.tx_obs_responses (s : State) (bytes : List Byte) : (s.tx bytes).obs.responses = s.obs.responses := rfl

@[simp] theorem State.reply_params (s : State) (m : Marker) (text : List Byte) : (s.reply m text).params = s.params := rfl
@[simp] theorem State.reply_registry (s : State) (m : Marker) (text : List Byte) : (s.reply m text).registry = s.registry := rfl
@[simp] theorem State.reply_axes (s : State) (m : Marker) (text : List Byte) : (s.reply m text).axes = s.axes := rfl
@[simp] theorem State.reply_parser (s : State) (m : Marker) (text : List Byte) : (s.reply m text).parser = s.parser := rfl
@[simp] theorem State.reply_store (s : State) (m : Marker) (text : List Byte) : (s.reply m text).store = s.store := rfl
@[simp] theorem State.reply_handler (s : State) (m : Marker) (text : List Byte) : (s.reply m text).handler = s.handler := rfl
@[simp] theorem State.reply_inbox (s : State) (m : Marker) (text : List Byte) : (s.reply m text).inbox = s.inbox := rfl
@[simp] theorem State.reply_obs_steps (s : State) (m : Marker) (text : List Byte) : (s.reply m text).obs.steps = s.obs.steps := rfl
@[simp] theorem State.reply_obs_tx (s : State) (m : Marker) (text : List Byte) : (s.reply m text).obs.tx = s.obs.tx ++ replyBytes m text := rfl
@[simp] theorem State.reply_obs_messages (s : State) (m : Marker) (text : List Byte) : (s.reply m text).obs.messages = s.obs.messages := rfl
@[simp] theorem State.reply_obs_responses (s : State) (m : Marker) (text : List Byte) : (s.reply m text).obs.responses = s.obs.responses := rfl

@[simp] theorem State.protocolError_params (s : State) (e : ProtocolError) : (s.protocolError e).params = s.params := rfl
@[simp] theorem State.protocolError_registry (s : State) (e : ProtocolError) : (s.protocolError e).registry = s.registry := rfl
@[simp] theorem State.protocolError_axes (s : State) (e : ProtocolError) : (s.protocolError e).axes = s.axes := rfl
@[simp] theorem State.protocolError_parser (s : State) (e : ProtocolError) : (s.protocolError e).parser = s.parser := rfl
@[simp] theorem State.protocolError_store (s : State) (e : ProtocolError) : (s.protocolError e).store = s.store := rfl
@[simp] theorem State.protocolError_handler (s : State) (e : ProtocolError) : (s.protocolError e).handler = s.handler := rfl
@[simp] theorem State.protocolError_inbox (s : State) (e : ProtocolError) : (s.protocolError e).inbox = s.inbox := rfl
@[simp] theorem State.protocolError_obs_steps (s : State) (e : ProtocolError) : (s.protocolError e).obs.steps = s.obs.steps := rfl
@[simp] theorem State.protocolError_obs_tx (s : State) (e : ProtocolError) : (s.protocolError e).obs.tx = s.obs.tx ++ replyBytes .error (errorText e) := rfl
@[simp] theorem State.protocolError_obs_messages (s : State) (e : ProtocolError) : (s.protocolError e).obs.messages = s.obs.messages := rfl
@[simp] theorem State.protocolError_obs_responses (s : State) (e : ProtocolError) : (s.protocolError e).obs.responses = s.obs.responses := rfl

@[simp] theorem State.present_params (s : State) (m : Message) : (s.present m).params = s.params := rfl
@[simp] theorem State.present_registry (s : State) (m : Message) : (s.present m).registry = s.registry := rfl
@[simp] theorem State.present_axes (s : State) (m : Message) : (s.present m).axes = s.axes := rfl
@[simp] theorem State.present_parser (s : State) (m : Message) : (s.present m).parser = { s.parser with handlerBusy := true } := rfl
@[simp] theorem State.present_store (s : State) (m : Message) : (s.present m).store = s.store := rfl
@[simp] theorem State.present_handler (s : State) (m : Message) : (s.present m).handler = .idle := rfl
@[simp] theorem State.present_inbox (s : State) (m : Message) : (s.present m).inbox = s.inbox := rfl
@[simp] theorem State.present_obs_steps (s : State) (m : Message) : (s.present m).obs.steps = s.obs.steps := rfl
@[simp] theorem State.present_obs_tx (s : State) (m : Message) : (s.present m).obs.tx = s.obs.tx := rfl
@[simp] theorem State.present_obs_messages (s : State) (m : Message) : (s.present m).obs.messages = s.obs.messages ++ [m] := rfl
@[simp] theorem State.present_obs_responses (s : State) (m : Message) : (s.present m).obs.responses = s.obs.responses := rfl

@[simp] theorem State.accept_params (s : State) (t : LineType) (f : Vector Word 4) : (s.accept t f).params = s.params := rfl
@[simp] theorem State.accept_registry (s : State) (t : LineType) (f : Vector Word 4) : (s.accept t f).registry = s.registry := rfl
@[simp] theorem State.accept_axes (s : State) (t : LineType) (f : Vector Word 4) : (s.accept t f).axes = s.axes := rfl
@[simp] theorem State.accept_parser (s : State) (t : LineType) (f : Vector Word 4) : (s.accept t f).parser = { s.parser with msg := { type := t.enum, typeDefIndex := t.enum, fields := f }, handlerBusy := true } := rfl
@[simp] theorem State.accept_store (s : State) (t : LineType) (f : Vector Word 4) : (s.accept t f).store = s.store := rfl
@[simp] theorem State.accept_handler (s : State) (t : LineType) (f : Vector Word 4) : (s.accept t f).handler = .idle := rfl
@[simp] theorem State.accept_inbox (s : State) (t : LineType) (f : Vector Word 4) : (s.accept t f).inbox = s.inbox := rfl
@[simp] theorem State.accept_obs_steps (s : State) (t : LineType) (f : Vector Word 4) : (s.accept t f).obs.steps = s.obs.steps := rfl
@[simp] theorem State.accept_obs_tx (s : State) (t : LineType) (f : Vector Word 4) : (s.accept t f).obs.tx = s.obs.tx := rfl
@[simp] theorem State.accept_obs_messages (s : State) (t : LineType) (f : Vector Word 4) : (s.accept t f).obs.messages = s.obs.messages ++ [{ type := t.enum, typeDefIndex := t.enum, fields := f }] := rfl
@[simp] theorem State.accept_obs_responses (s : State) (t : LineType) (f : Vector Word 4) : (s.accept t f).obs.responses = s.obs.responses := rfl

@[simp] theorem State.emptyBuffer_params (s : State) : (s.emptyBuffer).params = s.params := rfl
@[simp] theorem State.emptyBuffer_registry (s : State) : (s.emptyBuffer).registry = s.registry := rfl
@[simp] theorem State.emptyBuffer_axes (s : State) : (s.emptyBuffer).axes = s.axes := rfl
@[simp] theorem State.emptyBuffer_parser (s : State) : (s.emptyBuffer).parser = { s.parser with buf := [] } := rfl
@[simp] theorem State.emptyBuffer_store (s : State) : (s.emptyBuffer).store = s.store := rfl
@[simp] theorem State.emptyBuffer_handler (s : State) : (s.emptyBuffer).handler = s.handler := rfl
@[simp] theorem State.emptyBuffer_inbox (s : State) : (s.emptyBuffer).inbox = s.inbox := rfl
@[simp] theorem State.emptyBuffer_obs_steps (s : State) : (s.emptyBuffer).obs.steps = s.obs.steps := rfl
@[simp] theorem State.emptyBuffer_obs_tx (s : State) : (s.emptyBuffer).obs.tx = s.obs.tx := rfl
@[simp] theorem State.emptyBuffer_obs_messages (s : State) : (s.emptyBuffer).obs.messages = s.obs.messages := rfl
@[simp] theorem State.emptyBuffer_obs_responses (s : State) : (s.emptyBuffer).obs.responses = s.obs.responses := rfl

@[simp] theorem State.overflow_params (s : State) : (s.overflow).params = s.params := rfl
@[simp] theorem State.overflow_registry (s : State) : (s.overflow).registry = s.registry := rfl
@[simp] theorem State.overflow_axes (s : State) : (s.overflow).axes = s.axes := rfl
@[simp] theorem State.overflow_parser (s : State) : (s.overflow).parser = { s.parser with buf := [], discarding := true } := rfl
@[simp] theorem State.overflow_store (s : State) : (s.overflow).store = s.store := rfl
@[simp] theorem State.overflow_handler (s : State) : (s.overflow).handler = s.handler := rfl
@[simp] theorem State.overflow_inbox (s : State) : (s.overflow).inbox = s.inbox := rfl
@[simp] theorem State.overflow_obs_steps (s : State) : (s.overflow).obs.steps = s.obs.steps := rfl
@[simp] theorem State.overflow_obs_tx (s : State) : (s.overflow).obs.tx = s.obs.tx ++ replyBytes .error (errorText .lineTooLong) := rfl
@[simp] theorem State.overflow_obs_messages (s : State) : (s.overflow).obs.messages = s.obs.messages := rfl
@[simp] theorem State.overflow_obs_responses (s : State) : (s.overflow).obs.responses = s.obs.responses := rfl

@[simp] theorem State.powerOn_params (s : State) : (s.powerOn).params = s.params := rfl
@[simp] theorem State.powerOn_registry (s : State) : (s.powerOn).registry = { configured := false, frequency := 0 } := rfl
@[simp] theorem State.powerOn_axes (s : State) : (s.powerOn).axes = s.axes.map fun a => Axis.resetOf a.build a.limit := rfl
@[simp] theorem State.powerOn_parser (s : State) : (s.powerOn).parser = Interpreter.reset := rfl
@[simp] theorem State.powerOn_store (s : State) : (s.powerOn).store = s.store := rfl
@[simp] theorem State.powerOn_handler (s : State) : (s.powerOn).handler = .idle := rfl
@[simp] theorem State.powerOn_inbox (s : State) : (s.powerOn).inbox = s.inbox := rfl
@[simp] theorem State.powerOn_obs_steps (s : State) : (s.powerOn).obs.steps = [] := rfl
@[simp] theorem State.powerOn_obs_tx (s : State) : (s.powerOn).obs.tx = [] := rfl
@[simp] theorem State.powerOn_obs_messages (s : State) : (s.powerOn).obs.messages = [] := rfl
@[simp] theorem State.powerOn_obs_responses (s : State) : (s.powerOn).obs.responses = [] := rfl

@[simp] theorem Axis.setDir_build (a : Axis) (d : Direction) : (a.setDir d).build = a.build := rfl
@[simp] theorem Axis.setDir_position (a : Axis) (d : Direction) : (a.setDir d).position = a.position := rfl
@[simp] theorem Axis.setDir_stepsRemaining (a : Axis) (d : Direction) : (a.setDir d).stepsRemaining = a.stepsRemaining := rfl
@[simp] theorem Axis.setDir_direction (a : Axis) (d : Direction) : (a.setDir d).direction = d := rfl
@[simp] theorem Axis.setDir_runLength (a : Axis) (d : Direction) : (a.setDir d).runLength = a.runLength := rfl
@[simp] theorem Axis.setDir_riseLength (a : Axis) (d : Direction) : (a.setDir d).riseLength = a.riseLength := rfl
@[simp] theorem Axis.setDir_error (a : Axis) (d : Direction) : (a.setDir d).error = a.error := rfl
@[simp] theorem Axis.setDir_state (a : Axis) (d : Direction) : (a.setDir d).state = a.state := rfl
@[simp] theorem Axis.setDir_config (a : Axis) (d : Direction) : (a.setDir d).config = a.config := rfl
@[simp] theorem Axis.setDir_enable (a : Axis) (d : Direction) : (a.setDir d).enable = a.enable := rfl
@[simp] theorem Axis.setDir_step (a : Axis) (d : Direction) : (a.setDir d).step = a.step := rfl
@[simp] theorem Axis.setDir_dir (a : Axis) (d : Direction) : (a.setDir d).dir = dirLevel d := rfl
@[simp] theorem Axis.setDir_limit (a : Axis) (d : Direction) : (a.setDir d).limit = a.limit := rfl

@[simp] theorem Axis.toggleStep_build (a : Axis) : (a.toggleStep).build = a.build := rfl
@[simp] theorem Axis.toggleStep_position (a : Axis) : (a.toggleStep).position = a.position := rfl
@[simp] theorem Axis.toggleStep_stepsRemaining (a : Axis) : (a.toggleStep).stepsRemaining = a.stepsRemaining := rfl
@[simp] theorem Axis.toggleStep_direction (a : Axis) : (a.toggleStep).direction = a.direction := rfl
@[simp] theorem Axis.toggleStep_runLength (a : Axis) : (a.toggleStep).runLength = a.runLength := rfl
@[simp] theorem Axis.toggleStep_riseLength (a : Axis) : (a.toggleStep).riseLength = a.riseLength := rfl
@[simp] theorem Axis.toggleStep_error (a : Axis) : (a.toggleStep).error = a.error := rfl
@[simp] theorem Axis.toggleStep_state (a : Axis) : (a.toggleStep).state = a.state := rfl
@[simp] theorem Axis.toggleStep_config (a : Axis) : (a.toggleStep).config = a.config := rfl
@[simp] theorem Axis.toggleStep_enable (a : Axis) : (a.toggleStep).enable = a.enable := rfl
@[simp] theorem Axis.toggleStep_step (a : Axis) : (a.toggleStep).step = !a.step := rfl
@[simp] theorem Axis.toggleStep_dir (a : Axis) : (a.toggleStep).dir = a.dir := rfl
@[simp] theorem Axis.toggleStep_limit (a : Axis) : (a.toggleStep).limit = a.limit := rfl

@[simp] theorem Axis.advance_build (a : Axis) : (a.advance).build = a.build := rfl
@[simp] theorem Axis.advance_position (a : Axis) : (a.advance).position = a.position + directionWord a.direction := rfl
@[simp] theorem Axis.advance_stepsRemaining (a : Axis) : (a.advance).stepsRemaining = a.stepsRemaining := rfl
@[simp] theorem Axis.advance_direction (a : Axis) : (a.advance).direction = a.direction := rfl
@[simp] theorem Axis.advance_runLength (a : Axis) : (a.advance).runLength = a.runLength := rfl
@[simp] theorem Axis.advance_riseLength (a : Axis) : (a.advance).riseLength = a.riseLength := rfl
@[simp] theorem Axis.advance_error (a : Axis) : (a.advance).error = a.error := rfl
@[simp] theorem Axis.advance_state (a : Axis) : (a.advance).state = a.state := rfl
@[simp] theorem Axis.advance_config (a : Axis) : (a.advance).config = a.config := rfl
@[simp] theorem Axis.advance_enable (a : Axis) : (a.advance).enable = a.enable := rfl
@[simp] theorem Axis.advance_step (a : Axis) : (a.advance).step = a.step := rfl
@[simp] theorem Axis.advance_dir (a : Axis) : (a.advance).dir = a.dir := rfl
@[simp] theorem Axis.advance_limit (a : Axis) : (a.advance).limit = a.limit := rfl

@[simp] theorem Axis.leaveError_build (a : Axis) : (a.leaveError).build = a.build := rfl
@[simp] theorem Axis.leaveError_position (a : Axis) : (a.leaveError).position = 0 := rfl
@[simp] theorem Axis.leaveError_stepsRemaining (a : Axis) : (a.leaveError).stepsRemaining = 0 := rfl
@[simp] theorem Axis.leaveError_direction (a : Axis) : (a.leaveError).direction = .plus := rfl
@[simp] theorem Axis.leaveError_runLength (a : Axis) : (a.leaveError).runLength = 0 := rfl
@[simp] theorem Axis.leaveError_riseLength (a : Axis) : (a.leaveError).riseLength = 0 := rfl
@[simp] theorem Axis.leaveError_error (a : Axis) : (a.leaveError).error = 0 := rfl
@[simp] theorem Axis.leaveError_state (a : Axis) : (a.leaveError).state = .ready := rfl
@[simp] theorem Axis.leaveError_config (a : Axis) : (a.leaveError).config = a.config := rfl
@[simp] theorem Axis.leaveError_enable (a : Axis) : (a.leaveError).enable = a.enable := rfl
@[simp] theorem Axis.leaveError_step (a : Axis) : (a.leaveError).step = a.step := rfl
@[simp] theorem Axis.leaveError_dir (a : Axis) : (a.leaveError).dir = true := rfl
@[simp] theorem Axis.leaveError_limit (a : Axis) : (a.leaveError).limit = a.limit := rfl

@[simp] theorem Axis.commit_build (a : Axis) (delta : Int) (D rise : Nat) : (a.commit delta D rise).build = a.build := rfl
@[simp] theorem Axis.commit_position (a : Axis) (delta : Int) (D rise : Nat) : (a.commit delta D rise).position = a.position := rfl
@[simp] theorem Axis.commit_stepsRemaining (a : Axis) (delta : Int) (D rise : Nat) : (a.commit delta D rise).stepsRemaining = BitVec.ofNat 32 D := rfl
@[simp] theorem Axis.commit_direction (a : Axis) (delta : Int) (D rise : Nat) : (a.commit delta D rise).direction = (if 0 < delta then .plus else .minus) := rfl
@[simp] theorem Axis.commit_runLength (a : Axis) (delta : Int) (D rise : Nat) : (a.commit delta D rise).runLength = BitVec.ofNat 32 D := rfl
@[simp] theorem Axis.commit_riseLength (a : Axis) (delta : Int) (D rise : Nat) : (a.commit delta D rise).riseLength = BitVec.ofNat 32 rise := rfl
@[simp] theorem Axis.commit_error (a : Axis) (delta : Int) (D rise : Nat) : (a.commit delta D rise).error = 0 := rfl
@[simp] theorem Axis.commit_state (a : Axis) (delta : Int) (D rise : Nat) : (a.commit delta D rise).state = .moving := rfl
@[simp] theorem Axis.commit_config (a : Axis) (delta : Int) (D rise : Nat) : (a.commit delta D rise).config = a.config := rfl
@[simp] theorem Axis.commit_enable (a : Axis) (delta : Int) (D rise : Nat) : (a.commit delta D rise).enable = true := rfl
@[simp] theorem Axis.commit_step (a : Axis) (delta : Int) (D rise : Nat) : (a.commit delta D rise).step = a.step := rfl
@[simp] theorem Axis.commit_dir (a : Axis) (delta : Int) (D rise : Nat) : (a.commit delta D rise).dir = dirLevel (if 0 < delta then .plus else .minus) := rfl
@[simp] theorem Axis.commit_limit (a : Axis) (delta : Int) (D rise : Nat) : (a.commit delta D rise).limit = a.limit := rfl

/-- EndOfMotion changes ENABLE alone (R165). -/
theorem Axis.endOfMotion_eq (a : Axis) :
    a.endOfMotion = { a with enable := if a.config.stopMode = .disable then false else a.enable } := by
  unfold Axis.endOfMotion
  split <;> simp_all

@[simp] theorem Axis.endOfMotion_build (a : Axis) : (a.endOfMotion).build = a.build := by simp [Axis.endOfMotion_eq]
@[simp] theorem Axis.endOfMotion_position (a : Axis) : (a.endOfMotion).position = a.position := by simp [Axis.endOfMotion_eq]
@[simp] theorem Axis.endOfMotion_stepsRemaining (a : Axis) : (a.endOfMotion).stepsRemaining = a.stepsRemaining := by simp [Axis.endOfMotion_eq]
@[simp] theorem Axis.endOfMotion_direction (a : Axis) : (a.endOfMotion).direction = a.direction := by simp [Axis.endOfMotion_eq]
@[simp] theorem Axis.endOfMotion_runLength (a : Axis) : (a.endOfMotion).runLength = a.runLength := by simp [Axis.endOfMotion_eq]
@[simp] theorem Axis.endOfMotion_riseLength (a : Axis) : (a.endOfMotion).riseLength = a.riseLength := by simp [Axis.endOfMotion_eq]
@[simp] theorem Axis.endOfMotion_error (a : Axis) : (a.endOfMotion).error = a.error := by simp [Axis.endOfMotion_eq]
@[simp] theorem Axis.endOfMotion_state (a : Axis) : (a.endOfMotion).state = a.state := by simp [Axis.endOfMotion_eq]
@[simp] theorem Axis.endOfMotion_config (a : Axis) : (a.endOfMotion).config = a.config := by simp [Axis.endOfMotion_eq]
@[simp] theorem Axis.endOfMotion_enable (a : Axis) : (a.endOfMotion).enable = (if a.config.stopMode = .disable then false else a.enable) := by simp [Axis.endOfMotion_eq]
@[simp] theorem Axis.endOfMotion_step (a : Axis) : (a.endOfMotion).step = a.step := by simp [Axis.endOfMotion_eq]
@[simp] theorem Axis.endOfMotion_dir (a : Axis) : (a.endOfMotion).dir = a.dir := by simp [Axis.endOfMotion_eq]
@[simp] theorem Axis.endOfMotion_limit (a : Axis) : (a.endOfMotion).limit = a.limit := by simp [Axis.endOfMotion_eq]

@[simp] theorem Axis.enterError_build (a : Axis) : (a.enterError).build = a.build := by simp [Axis.enterError, Axis.endOfMotion_eq]
@[simp] theorem Axis.enterError_position (a : Axis) : (a.enterError).position = a.position := by simp [Axis.enterError, Axis.endOfMotion_eq]
@[simp] theorem Axis.enterError_stepsRemaining (a : Axis) : (a.enterError).stepsRemaining = 0 := by simp [Axis.enterError, Axis.endOfMotion_eq]
@[simp] theorem Axis.enterError_direction (a : Axis) : (a.enterError).direction = a.direction := by simp [Axis.enterError, Axis.endOfMotion_eq]
@[simp] theorem Axis.enterError_runLength (a : Axis) : (a.enterError).runLength = a.runLength := by simp [Axis.enterError, Axis.endOfMotion_eq]
@[simp] theorem Axis.enterError_riseLength (a : Axis) : (a.enterError).riseLength = a.riseLength := by simp [Axis.enterError, Axis.endOfMotion_eq]
@[simp] theorem Axis.enterError_error (a : Axis) : (a.enterError).error = a.error := by simp [Axis.enterError, Axis.endOfMotion_eq]
@[simp] theorem Axis.enterError_state (a : Axis) : (a.enterError).state = .error := by simp [Axis.enterError, Axis.endOfMotion_eq]
@[simp] theorem Axis.enterError_config (a : Axis) : (a.enterError).config = a.config := by simp [Axis.enterError, Axis.endOfMotion_eq]
@[simp] theorem Axis.enterError_enable (a : Axis) : (a.enterError).enable = (if a.config.stopMode = .disable then false else a.enable) := by simp [Axis.enterError, Axis.endOfMotion_eq]
@[simp] theorem Axis.enterError_step (a : Axis) : (a.enterError).step = a.step := by simp [Axis.enterError, Axis.endOfMotion_eq]
@[simp] theorem Axis.enterError_dir (a : Axis) : (a.enterError).dir = a.dir := by simp [Axis.enterError, Axis.endOfMotion_eq]
@[simp] theorem Axis.enterError_limit (a : Axis) : (a.enterError).limit = a.limit := by simp [Axis.enterError, Axis.endOfMotion_eq]

@[simp] theorem Axis.finishMove_build (a : Axis) : (a.finishMove).build = a.build := by simp [Axis.finishMove, Axis.endOfMotion_eq]
@[simp] theorem Axis.finishMove_position (a : Axis) : (a.finishMove).position = a.position := by simp [Axis.finishMove, Axis.endOfMotion_eq]
@[simp] theorem Axis.finishMove_stepsRemaining (a : Axis) : (a.finishMove).stepsRemaining = a.stepsRemaining := by simp [Axis.finishMove, Axis.endOfMotion_eq]
@[simp] theorem Axis.finishMove_direction (a : Axis) : (a.finishMove).direction = a.direction := by simp [Axis.finishMove, Axis.endOfMotion_eq]
@[simp] theorem Axis.finishMove_runLength (a : Axis) : (a.finishMove).runLength = a.runLength := by simp [Axis.finishMove, Axis.endOfMotion_eq]
@[simp] theorem Axis.finishMove_riseLength (a : Axis) : (a.finishMove).riseLength = a.riseLength := by simp [Axis.finishMove, Axis.endOfMotion_eq]
@[simp] theorem Axis.finishMove_error (a : Axis) : (a.finishMove).error = a.error := by simp [Axis.finishMove, Axis.endOfMotion_eq]
@[simp] theorem Axis.finishMove_state (a : Axis) : (a.finishMove).state = .finishedMoving := by simp [Axis.finishMove, Axis.endOfMotion_eq]
@[simp] theorem Axis.finishMove_config (a : Axis) : (a.finishMove).config = a.config := by simp [Axis.finishMove, Axis.endOfMotion_eq]
@[simp] theorem Axis.finishMove_enable (a : Axis) : (a.finishMove).enable = (if a.config.stopMode = .disable then false else a.enable) := by simp [Axis.finishMove, Axis.endOfMotion_eq]
@[simp] theorem Axis.finishMove_step (a : Axis) : (a.finishMove).step = a.step := by simp [Axis.finishMove, Axis.endOfMotion_eq]
@[simp] theorem Axis.finishMove_dir (a : Axis) : (a.finishMove).dir = a.dir := by simp [Axis.finishMove, Axis.endOfMotion_eq]
@[simp] theorem Axis.finishMove_limit (a : Axis) : (a.finishMove).limit = a.limit := by simp [Axis.finishMove, Axis.endOfMotion_eq]

@[simp] theorem Axis.resetOf_build (b : AxisBuild) (l : Bool) : (Axis.resetOf b l).build = b := rfl
@[simp] theorem Axis.resetOf_position (b : AxisBuild) (l : Bool) : (Axis.resetOf b l).position = 0 := rfl
@[simp] theorem Axis.resetOf_stepsRemaining (b : AxisBuild) (l : Bool) : (Axis.resetOf b l).stepsRemaining = 0 := rfl
@[simp] theorem Axis.resetOf_direction (b : AxisBuild) (l : Bool) : (Axis.resetOf b l).direction = .plus := rfl
@[simp] theorem Axis.resetOf_runLength (b : AxisBuild) (l : Bool) : (Axis.resetOf b l).runLength = 0 := rfl
@[simp] theorem Axis.resetOf_riseLength (b : AxisBuild) (l : Bool) : (Axis.resetOf b l).riseLength = 0 := rfl
@[simp] theorem Axis.resetOf_error (b : AxisBuild) (l : Bool) : (Axis.resetOf b l).error = 0 := rfl
@[simp] theorem Axis.resetOf_state (b : AxisBuild) (l : Bool) : (Axis.resetOf b l).state = .ready := rfl
@[simp] theorem Axis.resetOf_config (b : AxisBuild) (l : Bool) : (Axis.resetOf b l).config = b.init := rfl
@[simp] theorem Axis.resetOf_enable (b : AxisBuild) (l : Bool) : (Axis.resetOf b l).enable = false := rfl
@[simp] theorem Axis.resetOf_step (b : AxisBuild) (l : Bool) : (Axis.resetOf b l).step = false := rfl
@[simp] theorem Axis.resetOf_dir (b : AxisBuild) (l : Bool) : (Axis.resetOf b l).dir = true := rfl
@[simp] theorem Axis.resetOf_limit (b : AxisBuild) (l : Bool) : (Axis.resetOf b l).limit = l := rfl

/-- Driving LIMIT[i] touches nothing but that level. -/
theorem State.driveLimit_eq (s : State) (i : Nat) (level : Bool) :
    s.driveLimit i level = { s with axes := s.axes.modify i fun a => { a with limit := level } } := by
  unfold State.driveLimit State.setAxis
  split
  · next h =>
    have : s.axes.modify i (fun a => { a with limit := level }) = s.axes := by
      apply List.ext_getElem?; intro j
      by_cases hj : i = j
      · subst hj; simp [h]
      · simp [hj]
    simp [this]
  · next a h =>
    have : s.axes.modify i (fun a => { a with limit := level }) = s.axes.set i { a with limit := level } := by
      apply List.ext_getElem?; intro j
      by_cases hj : i = j
      · subst hj; simp [h]
        obtain ⟨hlt, -⟩ := List.getElem?_eq_some_iff.mp h
        simp [hlt]
      · simp [hj]
    simp [this]

@[simp] theorem State.driveLimit_params (s : State) (i : Nat) (l : Bool) : (s.driveLimit i l).params = s.params := by simp [State.driveLimit_eq]
@[simp] theorem State.driveLimit_registry (s : State) (i : Nat) (l : Bool) : (s.driveLimit i l).registry = s.registry := by simp [State.driveLimit_eq]
@[simp] theorem State.driveLimit_parser (s : State) (i : Nat) (l : Bool) : (s.driveLimit i l).parser = s.parser := by simp [State.driveLimit_eq]
@[simp] theorem State.driveLimit_store (s : State) (i : Nat) (l : Bool) : (s.driveLimit i l).store = s.store := by simp [State.driveLimit_eq]
@[simp] theorem State.driveLimit_handler (s : State) (i : Nat) (l : Bool) : (s.driveLimit i l).handler = s.handler := by simp [State.driveLimit_eq]
@[simp] theorem State.driveLimit_inbox (s : State) (i : Nat) (l : Bool) : (s.driveLimit i l).inbox = s.inbox := by simp [State.driveLimit_eq]
@[simp] theorem State.driveLimit_obs (s : State) (i : Nat) (l : Bool) : (s.driveLimit i l).obs = s.obs := by simp [State.driveLimit_eq]
@[simp] theorem State.driveLimit_axes (s : State) (i : Nat) (l : Bool) :
    (s.driveLimit i l).axes = s.axes.modify i fun a => { a with limit := l } := by simp [State.driveLimit_eq]

end Sys2Proof.Machine
end

