-- ==== Sys2Proof/Laws/Line.lean ====
section
/-! SUPPORT. Laws/Line.lean: what a line and a byte can do (44_line_input.md, 45_command_parser.md). -/

namespace Sys2Proof.Machine

theorem whenHandlerIdle_busy {s t : State} (h : s.parser.handlerBusy = true) : whenHandlerIdle s t = .next s := by
  simp [whenHandlerIdle, h]

theorem whenHandlerIdle_idle {s t : State} (h : s.parser.handlerBusy = false) : whenHandlerIdle s t = .next t := by
  simp [whenHandlerIdle, h]

/-- A line runs as the instruction it stands for (R241-R246). -/
theorem runLine_eq_exec (t : LineType) (fields : List Word) (s : State) :
    runLine t fields s = exec (lineInstr t fields) s := by cases t <;> rfl

/-- ProcessCommand runs the decoded line, or answers one ERROR (R232, R239). -/
theorem processCommand_ok {line : List Byte} {s : State} {i : Instr} (h : decodeLine s.numAxes line = .ok i) :
    processCommand line s = exec i s := by
  unfold decodeLine at h
  unfold processCommand
  split at h
  · simp at h
  · next t fields hp =>
    simp only [Except.ok.injEq] at h
    subst h
    simp [hp, runLine_eq_exec]

theorem processCommand_error {line : List Byte} {s : State} {e : ProtocolError}
    (h : parseLine s.numAxes line = .error e) : processCommand line s = .next (s.protocolError e) := by
  simp [processCommand, h]

/-- Every outcome of a line taken while no Message is with the handler: one ERROR reply or one Message (R240). -/
theorem runLine_cases (t : LineType) (fields : List Word) {s u : State} (h : runLine t fields s = .next u)
    (hb : s.parser.handlerBusy = false) : (∃ f, u = s.accept t f) ∨ u = s.protocolError .badAxis := by
  cases t <;> simp only [runLine, execLineGo, execLineSet, execLineGet, execLineHome, execLineState, execLineAlive,
    whenHandlerIdle_idle hb, Host.Outcome.next.injEq] at h
  case set => split at h <;> [exact .inl ⟨_, h.symm⟩; exact .inr h.symm]
  case get => split at h <;> [exact .inl ⟨_, h.symm⟩; exact .inr h.symm]
  all_goals exact .inl ⟨_, h.symm⟩

theorem processCommand_cases {line : List Byte} {s u : State} (h : processCommand line s = .next u)
    (hb : s.parser.handlerBusy = false) : (∃ t f, u = s.accept t f) ∨ ∃ e, u = s.protocolError e := by
  unfold processCommand at h
  split at h
  · next e _ => exact .inr ⟨e, by simpa using h.symm⟩
  · next t f _ =>
    rcases runLine_cases t f h hb with ⟨g, rfl⟩ | rfl
    · exact .inl ⟨t, g, rfl⟩
    · exact .inr ⟨_, rfl⟩

/-- A line always answers. -/
theorem processCommand_next (line : List Byte) (s : State) : ∃ u, processCommand line s = .next u := by
  have hw (t : State) : ∃ u, whenHandlerIdle s t = .next u := by unfold whenHandlerIdle; split <;> exact ⟨_, rfl⟩
  unfold processCommand
  split
  · exact ⟨_, rfl⟩
  · next t f _ => cases t <;> exact hw _

/-- Every outcome of one RX byte (R210-R216). -/
theorem execRx_cases {b : Byte} {s u : State} (h : execRx b s = .next u) :
    u = s ∨
    (s.parser.handlerBusy = false ∧ s.parser.discarding = true ∧ isTerminator b = true ∧
      u = { s with parser := { s.parser with discarding := false } }) ∨
    (s.parser.handlerBusy = false ∧ s.parser.discarding = false ∧ isTerminator b = true ∧ s.parser.buf ≠ [] ∧
      processCommand s.parser.buf s.emptyBuffer = .next u) ∨
    (s.parser.handlerBusy = false ∧ s.parser.discarding = false ∧ printable b = true ∧
      s.params.cmdBufLen ≤ s.parser.buf.length ∧ u = s.overflow) ∨
    (s.parser.handlerBusy = false ∧ s.parser.discarding = false ∧ printable b = true ∧
      s.parser.buf.length < s.params.cmdBufLen ∧
      u = { s with parser := { s.parser with buf := s.parser.buf ++ [b] } }) := by
  unfold execRx at h
  split at h
  · exact .inl (by simpa using h.symm)
  · next hb =>
    simp only [Bool.not_eq_true] at hb
    split at h
    · next ht =>
      unfold terminator at h
      split at h
      · next hd => exact .inr (.inl ⟨hb, hd, ht, by simpa using h.symm⟩)
      · next hd =>
        split at h
        · exact .inl (by simpa using h.symm)
        · next hbuf => exact .inr (.inr (.inl ⟨hb, by simpa using hd, ht, hbuf, h⟩))
    · split at h
      · next hp =>
        unfold printableByte at h
        split at h
        · exact .inl (by simpa using h.symm)
        · next hd =>
          split at h
          · next hl => exact .inr (.inr (.inr (.inl ⟨hb, by simpa using hd, hp, hl, by simpa using h.symm⟩)))
          · next hl =>
            exact .inr (.inr (.inr (.inr ⟨hb, by simpa using hd, hp, by omega, by simpa using h.symm⟩)))
      · exact .inl (by simpa using h.symm)

end Sys2Proof.Machine
end

