-- ==== Sys2Proof/Laws/Ops.lean ====
section
/-! SUPPORT. Laws/Ops.lean: for each shared operation, everything it can do, said once. -/

namespace Sys2Proof.Machine

/-! ### Axis operations -/

theorem axisOp_absent {axis : BitVec 8} {f : Axis → Option (Axis × Word)} {s : State} (h : s.axes[axis.toNat]? = none) :
    axisOp axis f s = .next (s.respond false 0) := by simp [axisOp, h, failOp]

theorem axisOp_refuses {axis : BitVec 8} {f : Axis → Option (Axis × Word)} {s : State} {a : Axis}
    (h : s.axes[axis.toNat]? = some a) (hf : f a = none) : axisOp axis f s = .next (s.respond false 0) := by
  simp [axisOp, h, hf, failOp]

theorem axisOp_accepts {axis : BitVec 8} {f : Axis → Option (Axis × Word)} {s : State} {a b : Axis} {v : Word}
    (h : s.axes[axis.toNat]? = some a) (hf : f a = some (b, v)) :
    axisOp axis f s = .next ((s.setAxis axis.toNat b).respond true v) := by
  simp [axisOp, h, hf, succeedOp]

/-- An axis operation fails with no effect, or replaces the addressed axis. -/
theorem axisOp_cases {axis : BitVec 8} {f : Axis → Option (Axis × Word)} {s t : State} (h : axisOp axis f s = .next t) :
    t = s.respond false 0 ∨
      ∃ a b v, s.axes[axis.toNat]? = some a ∧ f a = some (b, v) ∧ t = (s.setAxis axis.toNat b).respond true v := by
  unfold axisOp failOp succeedOp at h
  split at h
  · exact .inl (by simpa using h.symm)
  · next a ha =>
    split at h
    · exact .inl (by simpa using h.symm)
    · next b v hb => exact .inr ⟨a, b, v, ha, hb, by simpa using h.symm⟩

/-- An axis operation always answers. -/
theorem axisOp_next (axis : BitVec 8) (f : Axis → Option (Axis × Word)) (s : State) : ∃ t, axisOp axis f s = .next t := by
  unfold axisOp failOp succeedOp
  split
  · exact ⟨_, rfl⟩
  · split <;> exact ⟨_, rfl⟩

/-- Every OP with an axis field is an axis operation whose effect depends on the parameters, the Registry and the addressed axis alone
(R74, R312). -/
theorem exec_eq_axisOp {i : Instr} {axis : BitVec 8} (h : opAxis i = some axis) :
    ∃ f : Params → Registry → Axis → Option (Axis × Word), ∀ s : State, exec i s = axisOp axis (f s.params s.registry) s := by
  cases i <;> simp only [opAxis, Option.some.injEq, reduceCtorEq] at h <;> subst h
  case moveAbs v => exact ⟨fun _ r => Axis.startMove r v.toInt, fun _ => rfl⟩
  case moveRel v => exact ⟨fun _ r => Axis.startRelative r v.toInt, fun _ => rfl⟩
  case home => exact ⟨fun p r => Axis.startHoming p r, fun _ => rfl⟩
  case setPos v => exact ⟨fun _ _ => Axis.setPosition v, fun _ => rfl⟩
  case axisReset => exact ⟨fun _ _ => Axis.resetFromError, fun _ => rfl⟩
  all_goals
    simp only [exec, execGetPos, execBusy, execCheckFinished, execGetState, execGetMaxvel, execSetMaxvel, execGetAccel,
      execSetAccel, execGetStopmode, execSetStopmode, execGetHomedir, execGetCanhome, execGetAxis, readOp, configOp]
    exact ⟨fun _ _ => _, fun _ => rfl⟩

/-! ### Moves -/

/-- When a move is accepted (R100) and what it commits. -/
theorem Axis.startMove_eq_some {r : Registry} {target : Int} {a b : Axis} {v : Word} :
    a.startMove r target = some (b, v) ↔
      a.state = .ready ∧ r.configured = true ∧ target ≠ a.position.toInt ∧
        0 < a.config.maxVelocity.toInt ∧ 0 < a.config.acceleration.toInt ∧
        riseTicks (target - a.position.toInt).natAbs a.config.maxVelocity.toInt.toNat a.config.acceleration.toInt.toNat
            r.frequency.toNat ≤ 4294967295 ∧
        b = a.commit (target - a.position.toInt) (target - a.position.toInt).natAbs
          (riseTicks (target - a.position.toInt).natAbs a.config.maxVelocity.toInt.toNat a.config.acceleration.toInt.toNat
            r.frequency.toNat) ∧
        v = BitVec.ofNat 32
          (riseTicks (target - a.position.toInt).natAbs a.config.maxVelocity.toInt.toNat a.config.acceleration.toInt.toNat
            r.frequency.toNat) := by
  have hd : target - a.position.toInt = 0 ↔ target = a.position.toInt := by omega
  simp only [Axis.startMove, hd]
  split
  · simp_all
  · split
    · simp_all
    · split
      · simp_all
      · split
        · next h => simp only [reduceCtorEq, false_iff]; omega
        · split
          · simp only [reduceCtorEq, false_iff]; omega
          · next h1 h2 h3 h4 h5 =>
            simp only [Option.some.injEq, Prod.mk.injEq]
            constructor
            · rintro ⟨rfl, rfl⟩
              refine ⟨by simpa using h1, by simpa using h2, h3, by omega, by omega, by omega, rfl, rfl⟩
            · rintro ⟨-, -, -, -, -, -, rfl, rfl⟩
              exact ⟨rfl, rfl⟩

theorem Axis.startRelative_eq_some {r : Registry} {delta : Int} {a b : Axis} {v : Word} :
    a.startRelative r delta = some (b, v) ↔
      FitsInt32 (a.position.toInt + delta) ∧ a.startMove r (a.position.toInt + delta) = some (b, v) := by
  simp only [Axis.startRelative]
  split
  · next h => exact ⟨fun hs => ⟨h, hs⟩, fun hs => hs.2⟩
  · next h => exact ⟨fun hs => by simp at hs, fun hs => absurd hs.1 h⟩

theorem Axis.startHoming_eq_some {p : Params} {r : Registry} {a b : Axis} {v : Word} :
    a.startHoming p r = some (b, v) ↔
      a.state = .ready ∧ a.config.canHome = true ∧ r.configured = true ∧
        b = { a.setDir a.config.homeDirection with stepsRemaining := p.homeTickBudget, enable := true, state := .homingSeek } ∧
        v = 0 := by
  unfold Axis.startHoming
  split
  · simp_all
  · split
    · simp_all
    · split
      · simp_all
      · simp_all only [Option.some.injEq, Prod.mk.injEq, ne_eq, Decidable.not_not, Bool.not_eq_false, true_and]
        exact ⟨fun h => ⟨h.1.symm, h.2.symm⟩, fun h => ⟨h.1.symm, h.2.symm⟩⟩

theorem Axis.setPosition_eq_some {p : Word} {a b : Axis} {v : Word} :
    a.setPosition p = some (b, v) ↔ a.state = .ready ∧ b = { a with position := p } ∧ v = 0 := by
  unfold Axis.setPosition
  split
  · simp_all
  · simp_all only [Option.some.injEq, Prod.mk.injEq, ne_eq, Decidable.not_not, true_and]
    exact ⟨fun h => ⟨h.1.symm, h.2.symm⟩, fun h => ⟨h.1.symm, h.2.symm⟩⟩

theorem Axis.resetFromError_eq_some {a b : Axis} {v : Word} :
    a.resetFromError = some (b, v) ↔ a.state = .error ∧ b = a.leaveError ∧ v = 0 := by
  unfold Axis.resetFromError
  split
  · simp_all
  · simp_all only [Option.some.injEq, Prod.mk.injEq, ne_eq, Decidable.not_not, true_and]
    exact ⟨fun h => ⟨h.1.symm, h.2.symm⟩, fun h => ⟨h.1.symm, h.2.symm⟩⟩

/-! ### Reads and configuration writes -/

theorem readOp_eq {axis : BitVec 8} {read : Axis → Word} {s : State} {a : Axis} (h : s.axes[axis.toNat]? = some a) :
    readOp axis read s = .next (s.respond true (read a)) := by
  obtain ⟨hlt, rfl⟩ := List.getElem?_eq_some_iff.mp h
  rw [readOp, axisOp_accepts h rfl]
  simp [State.setAxis]

/-- A configuration write fails with no effect, or replaces the configuration of an axis that is not busy. -/
theorem configOp_cases {axis : BitVec 8} {write : AxisConfig → Option AxisConfig} {s t : State}
    (h : configOp axis write s = .next t) :
    t = s.respond false 0 ∨
      ∃ a c, s.axes[axis.toNat]? = some a ∧ a.state.busy = false ∧ write a.config = some c ∧
        t = (s.setAxis axis.toNat { a with config := c }).respond true 0 := by
  rcases axisOp_cases h with h | ⟨a, b, v, ha, hf, rfl⟩
  · exact .inl h
  · right
    split at hf
    · simp at hf
    · split at hf
      · simp at hf
      · next c hc =>
        simp only [Option.some.injEq, Prod.mk.injEq] at hf
        obtain ⟨rfl, rfl⟩ := hf
        exact ⟨a, c, ha, by simp_all, hc, rfl⟩

/-- CHECK_FINISHED fails with no effect, reads a latch that is not set, or clears one that is (R132). -/
theorem execCheckFinished_cases {axis : BitVec 8} {s t : State} (h : execCheckFinished axis s = .next t) :
    t = s.respond false 0 ∨
      ∃ a, s.axes[axis.toNat]? = some a ∧
        ((a.state.finished = false ∧ t = s.respond true 0) ∨
          (a.state.finished = true ∧ t = (s.setAxis axis.toNat { a with state := .ready }).respond true 1)) := by
  rcases axisOp_cases h with h | ⟨a, b, v, ha, hf, rfl⟩
  · exact .inl h
  · right
    refine ⟨a, ha, ?_⟩
    split at hf
    · next hfin =>
      simp only [Option.some.injEq, Prod.mk.injEq] at hf
      obtain ⟨rfl, rfl⟩ := hf
      exact .inr ⟨hfin, rfl⟩
    · next hfin =>
      simp only [Option.some.injEq, Prod.mk.injEq] at hf
      obtain ⟨rfl, rfl⟩ := hf
      obtain ⟨hlt, rfl⟩ := List.getElem?_eq_some_iff.mp ha
      exact .inl ⟨by simpa using hfin, by simp [State.setAxis]⟩

/-! ### Registry operations -/

theorem execSetup_cases {f : Word} {s t : State} (h : execSetup f s = .next t) :
    t = s.respond false 0 ∨
      (s.registry.configured = false ∧ f ≠ 0 ∧
        t = State.respond { s with registry := { configured := true, frequency := f } } true 0) := by
  unfold execSetup failOp succeedOp at h
  split at h
  · exact .inl (by simpa using h.symm)
  · split at h
    · exact .inl (by simpa using h.symm)
    · exact .inr ⟨by simp_all, by assumption, by simpa using h.symm⟩

theorem execSaveSettings_cases {off : Word} {s t : State} (h : execSaveSettings off s = .next t) :
    t = s.respond false 0 ∨
      (off.toNat + s.settingsBytes ≤ s.params.storeSize ∧
        t = State.respond { s with store := s.store.writeBytes off.toNat (encodeSettings s.axes) } true
          (BitVec.ofNat 32 (off.toNat + s.settingsBytes))) := by
  unfold execSaveSettings failOp succeedOp at h
  split at h
  · exact .inl (by simpa using h.symm)
  · exact .inr ⟨by omega, by simpa using h.symm⟩

theorem execRestoreSettings_cases {off : Word} {s t : State} (h : execRestoreSettings off s = .next t) :
    t = s.respond false 0 ∨
      (anyBusy s.axes = false ∧ off.toNat + s.settingsBytes ≤ s.params.storeSize ∧
        t = State.respond { s with axes := restoreAxes s.store off.toNat s.axes } true
          (BitVec.ofNat 32 (off.toNat + s.settingsBytes))) := by
  unfold execRestoreSettings failOp succeedOp at h
  split at h
  · exact .inl (by simpa using h.symm)
  · split at h
    · exact .inl (by simpa using h.symm)
    · exact .inr ⟨by simp_all, by omega, by simpa using h.symm⟩

/-! ### Settings records -/

@[simp] theorem le32Inv_le32 (v : Word) :
    le32Inv (v.extractLsb' 0 8) (v.extractLsb' 8 8) (v.extractLsb' 16 8) (v.extractLsb' 24 8) = v := by
  apply BitVec.eq_of_toNat_eq
  have hv := v.isLt
  have app {n m : Nat} (x : BitVec n) (y : BitVec m) : (x ++ y).toNat = x.toNat * 2 ^ m + y.toNat := by
    rw [BitVec.toNat_append, ← Nat.shiftLeft_add_eq_or_of_lt y.isLt, Nat.shiftLeft_eq]
  simp only [le32Inv, app, BitVec.extractLsb'_toNat, Nat.shiftRight_eq_div_pow]
  omega

@[simp] theorem length_encodeRecord (c : AxisConfig) : (encodeRecord c).length = recordBytes := rfl

/-- A record is read back (R193). -/
theorem decodeRecord_encodeRecord (c : AxisConfig) (byte : Nat → Byte)
    (h : ∀ k (hk : k < (encodeRecord c).length), byte k = (encodeRecord c)[k]) : decodeRecord byte = c := by
  have e (k : Nat) (hk : k < 11) : byte k = (encodeRecord c)[k]'(by simpa [recordBytes] using hk) := h k (by simpa [recordBytes] using hk)
  unfold decodeRecord
  rw [e 0 (by omega), e 1 (by omega), e 2 (by omega), e 3 (by omega), e 4 (by omega), e 5 (by omega), e 6 (by omega),
    e 7 (by omega), e 8 (by omega), e 9 (by omega), e 10 (by omega)]
  obtain ⟨v, a, m, d, hm⟩ := c
  cases m <;> cases d <;> cases hm <;> simp [encodeRecord, le32, stopModeByte, directionByte, flagByte]

@[simp] theorem length_encodeSettings (axes : List Axis) : (encodeSettings axes).length = recordBytes * axes.length := by
  induction axes with
  | nil => rfl
  | cons a rest ih => simp [encodeSettings, ih]; ring

theorem getElem_encodeSettings (axes : List Axis) (i k : Nat) (hk : k < recordBytes) (a : Axis) (h : axes[i]? = some a)
    (hb : recordBytes * i + k < (encodeSettings axes).length) :
    (encodeSettings axes)[recordBytes * i + k] = (encodeRecord a.config)[k]'(by simpa using hk) := by
  induction axes generalizing i with
  | nil => simp at h
  | cons c rest ih =>
    cases i with
    | zero =>
      simp only [List.getElem?_cons_zero, Option.some.injEq] at h
      subst h
      simp [encodeSettings, List.getElem_append, hk]
    | succ i =>
      have h' : rest[i]? = some a := by simpa using h
      have hb' : recordBytes * i + k < (encodeSettings rest).length := by
        simp only [encodeSettings, List.length_append, length_encodeRecord] at hb
        rw [Nat.mul_succ] at hb
        omega
      have := ih i h' hb'
      rw [← this]
      have hle : (encodeRecord c.config).length ≤ recordBytes * (i + 1) + k := by
        rw [length_encodeRecord, Nat.mul_succ]; omega
      simp only [encodeSettings]
      rw [List.getElem_append_right hle]
      congr 1
      rw [length_encodeRecord, Nat.mul_succ]
      omega

@[simp] theorem length_restoreAxes (m : Memory) (off : Nat) (axes : List Axis) :
    (restoreAxes m off axes).length = axes.length := by
  induction axes generalizing off with
  | nil => rfl
  | cons a rest ih => simp [restoreAxes, ih]

/-- RESTORE_SETTINGS gives axis i the record at off + 11*i and touches nothing else of it (R194). -/
theorem getElem?_restoreAxes (m : Memory) (off : Nat) (axes : List Axis) (i : Nat) :
    (restoreAxes m off axes)[i]? =
      axes[i]?.map fun a => { a with config := decodeRecord fun k => m.read (off + recordBytes * i + k) } := by
  induction axes generalizing off i with
  | nil => simp [restoreAxes]
  | cons a rest ih =>
    cases i with
    | zero => simp [restoreAxes]
    | succ i =>
      simp only [restoreAxes, List.getElem?_cons_succ, ih]
      congr 1
      funext b
      congr 2
      funext k
      congr 1
      rw [Nat.mul_succ]
      omega

end Sys2Proof.Machine
end

