-- ==== Sys2Proof/Laws/Tick.lean ====
section
/-! SUPPORT. Laws/Tick.lean: what one tick does to one axis, case by case, and to the machine (42_tick.md). -/

namespace Sys2Proof.Machine

/-! ### One axis -/

/-- An axis that is not busy is not touched (R160). -/
theorem Axis.tick_idle {B : Word} {a : Axis} (h : a.state.busy = false) : a.tick B = (a, none) := by
  unfold Axis.tick
  cases hs : a.state <;> simp_all [RunState.busy]

theorem Axis.moveBroken_eq_false {a : Axis} :
    a.moveBroken = false ↔
      a.riseLength ≠ 0 ∧ a.stepsRemaining ≠ 0 ∧ a.runLength.toNat ≤ a.riseLength.toNat := by
  simp [Axis.moveBroken, and_assoc]

/-- A sound moving axis whose sum stays below riseLength emits no pulse (R161). -/
theorem Axis.tick_moving_quiet {B : Word} {a : Axis} (hs : a.state = .moving) (hb : a.moveBroken = false)
    (hq : a.error.toNat + a.runLength.toNat < a.riseLength.toNat) :
    a.tick B = ({ a with error := BitVec.ofNat 32 (a.error.toNat + a.runLength.toNat) }, none) := by
  have : ¬ a.riseLength.toNat ≤ a.error.toNat + a.runLength.toNat := by omega
  simp [Axis.tick, hs, Axis.movingTick, hb, this]

/-- A sound moving axis whose sum reaches riseLength emits one pulse (R161). -/
theorem Axis.tick_moving_pulse {B : Word} {a : Axis} (hs : a.state = .moving) (hb : a.moveBroken = false)
    (hp : a.riseLength.toNat ≤ a.error.toNat + a.runLength.toNat) :
    a.tick B = (a.movePulse (a.error.toNat + a.runLength.toNat - a.riseLength.toNat), some a.direction) := by
  simp [Axis.tick, hs, Axis.movingTick, hb, hp]

theorem Axis.tick_moving_broken {B : Word} {a : Axis} (hs : a.state = .moving) (hb : a.moveBroken = true) :
    a.tick B = (a.enterError, none) := by
  simp [Axis.tick, hs, Axis.movingTick, hb]

/-- Every case of a moving tick (R161). -/
theorem Axis.tick_moving_cases (B : Word) {a : Axis} (hs : a.state = .moving) :
    (a.moveBroken = true ∧ a.tick B = (a.enterError, none)) ∨
    (a.moveBroken = false ∧ a.error.toNat + a.runLength.toNat < a.riseLength.toNat ∧
      a.tick B = ({ a with error := BitVec.ofNat 32 (a.error.toNat + a.runLength.toNat) }, none)) ∨
    (a.moveBroken = false ∧ a.riseLength.toNat ≤ a.error.toNat + a.runLength.toNat ∧
      a.tick B = (a.movePulse (a.error.toNat + a.runLength.toNat - a.riseLength.toNat), some a.direction)) := by
  cases hb : a.moveBroken
  · rcases Nat.lt_or_ge (a.error.toNat + a.runLength.toNat) a.riseLength.toNat with h | h
    · exact .inr (.inl ⟨rfl, h, Axis.tick_moving_quiet hs hb h⟩)
    · exact .inr (.inr ⟨rfl, h, Axis.tick_moving_pulse hs hb h⟩)
  · exact .inl ⟨rfl, Axis.tick_moving_broken hs hb⟩

/-- The pulse of a move, field by field (R161, R162). -/
theorem Axis.movePulse_eq (a : Axis) (r : Nat) :
    a.movePulse r =
      if a.stepsRemaining - 1 = 0 then
        { a with
          step := !a.step, position := a.position + directionWord a.direction, error := BitVec.ofNat 32 r
          stepsRemaining := 0, state := .finishedMoving
          enable := if a.config.stopMode = .disable then false else a.enable }
      else
        { a with
          step := !a.step, position := a.position + directionWord a.direction, error := BitVec.ofNat 32 r
          stepsRemaining := a.stepsRemaining - 1 } := by
  unfold Axis.movePulse Axis.finishMove
  simp only [Axis.endOfMotion_eq, Axis.toggleStep, Axis.advance]
  split
  · next h => rw [h]
  · rfl

/-- The pulse of a homing phase, field by field (R167-R169). -/
theorem Axis.homePulse_eq (a : Axis) :
    a.homePulse =
      (if a.stepsRemaining - 1 = 0 then
        { a with
          step := !a.step, position := a.position + directionWord a.direction, stepsRemaining := 0, state := .error
          enable := if a.config.stopMode = .disable then false else a.enable }
      else
        { a with
          step := !a.step, position := a.position + directionWord a.direction
          stepsRemaining := a.stepsRemaining - 1 }, some a.direction) := by
  unfold Axis.homePulse Axis.enterError
  simp only [Axis.endOfMotion_eq, Axis.toggleStep, Axis.advance]

/-- Every case of a seek tick (R167). -/
theorem Axis.tick_seek_cases (B : Word) {a : Axis} (hs : a.state = .homingSeek) :
    (a.stepsRemaining = 0 ∧ a.tick B = (a.enterError, none)) ∨
    (a.stepsRemaining ≠ 0 ∧ a.readLimit = true ∧ a.tick B =
      ({ a.setDir (reverseDirection a.direction) with stepsRemaining := B, state := .homingBackoff }, none)) ∨
    (a.stepsRemaining ≠ 0 ∧ a.readLimit = false ∧ a.tick B = a.homePulse) := by
  by_cases h0 : a.stepsRemaining = 0
  · exact .inl ⟨h0, by simp only [Axis.tick, hs, Axis.seekTick, if_pos h0]⟩
  · cases hl : a.readLimit
    · exact .inr (.inr ⟨h0, rfl, by simp only [Axis.tick, hs, Axis.seekTick, if_neg h0, hl]; rfl⟩)
    · exact .inr (.inl ⟨h0, rfl, by simp only [Axis.tick, hs, Axis.seekTick, if_neg h0, hl]; rfl⟩)

/-- Every case of a back-off tick (R168). -/
theorem Axis.tick_backoff_cases (B : Word) {a : Axis} (hs : a.state = .homingBackoff) :
    (a.stepsRemaining = 0 ∧ a.tick B = (a.enterError, none)) ∨
    (a.stepsRemaining ≠ 0 ∧ a.readLimit = false ∧ a.tick B =
      (Axis.endOfMotion { a with position := 0, stepsRemaining := 0, state := .finishedHoming }, none)) ∨
    (a.stepsRemaining ≠ 0 ∧ a.readLimit = true ∧ a.tick B = a.homePulse) := by
  by_cases h0 : a.stepsRemaining = 0
  · exact .inl ⟨h0, by simp only [Axis.tick, hs, Axis.backoffTick, if_pos h0]⟩
  · cases hl : a.readLimit
    · exact .inr (.inl ⟨h0, rfl, by simp only [Axis.tick, hs, Axis.backoffTick, if_neg h0, hl]; rfl⟩)
    · exact .inr (.inr ⟨h0, rfl, by simp only [Axis.tick, hs, Axis.backoffTick, if_neg h0, hl]; rfl⟩)

/-- A tick never writes the build, the configuration or the LIMIT level (R33, R46). -/
theorem Axis.tick_keeps (B : Word) (a : Axis) :
    (a.tick B).1.build = a.build ∧ (a.tick B).1.config = a.config ∧ (a.tick B).1.limit = a.limit := by
  cases hs : a.state with
  | moving =>
    rcases Axis.tick_moving_cases B hs with ⟨-, h⟩ | ⟨-, -, h⟩ | ⟨-, -, h⟩ <;> rw [h]
    · simp
    · simp
    · rw [Axis.movePulse_eq]; split <;> simp
  | homingSeek =>
    rcases Axis.tick_seek_cases B hs with ⟨-, h⟩ | ⟨-, -, h⟩ | ⟨-, -, h⟩ <;> rw [h]
    · simp
    · simp
    · rw [Axis.homePulse_eq]; split <;> simp
  | homingBackoff =>
    rcases Axis.tick_backoff_cases B hs with ⟨-, h⟩ | ⟨-, -, h⟩ | ⟨-, -, h⟩ <;> rw [h]
    · simp
    · simp
    · rw [Axis.homePulse_eq]; split <;> simp
  | ready => rw [Axis.tick_idle (by simp [hs, RunState.busy])]; simp
  | finishedMoving => rw [Axis.tick_idle (by simp [hs, RunState.busy])]; simp
  | finishedHoming => rw [Axis.tick_idle (by simp [hs, RunState.busy])]; simp
  | error => rw [Axis.tick_idle (by simp [hs, RunState.busy])]; simp

@[simp] theorem Axis.tick_build (B : Word) (a : Axis) : (a.tick B).1.build = a.build := (Axis.tick_keeps B a).1
@[simp] theorem Axis.tick_config (B : Word) (a : Axis) : (a.tick B).1.config = a.config := (Axis.tick_keeps B a).2.1
@[simp] theorem Axis.tick_limit (B : Word) (a : Axis) : (a.tick B).1.limit = a.limit := (Axis.tick_keeps B a).2.2

/-- The three busy states (R42). -/
theorem RunState.busy_iff {r : RunState} : r.busy = true ↔ r = .moving ∨ r = .homingSeek ∨ r = .homingBackoff := by
  cases r <;> simp [RunState.busy]

/-- A pulse comes from a busy axis and goes in its direction (R160, R161, R169). -/
theorem Axis.tick_pulse {B : Word} {a : Axis} {d : Direction} (h : (a.tick B).2 = some d) : d = a.direction ∧ a.state.busy = true := by
  cases hb : a.state.busy with
  | false => rw [Axis.tick_idle hb] at h; simp at h
  | true =>
    refine ⟨?_, rfl⟩
    rcases RunState.busy_iff.mp hb with hs | hs | hs
    · rcases Axis.tick_moving_cases B hs with ⟨-, e⟩ | ⟨-, -, e⟩ | ⟨-, -, e⟩ <;> rw [e] at h <;> simp at h
      exact h.symm
    · rcases Axis.tick_seek_cases B hs with ⟨-, e⟩ | ⟨-, -, e⟩ | ⟨-, -, e⟩ <;> rw [e] at h <;> simp [Axis.homePulse_eq] at h
      exact h.symm
    · rcases Axis.tick_backoff_cases B hs with ⟨-, e⟩ | ⟨-, -, e⟩ | ⟨-, -, e⟩ <;> rw [e] at h <;> simp [Axis.homePulse_eq] at h
      exact h.symm

/-- One step of a position that stays an int32 is exact (R163). -/
theorem toInt_add_directionWord (p : Word) (d : Direction) (h : FitsInt32 (p.toInt + directionInt d)) :
    (p + directionWord d).toInt = p.toInt + directionInt d := by
  unfold FitsInt32 at h
  rw [BitVec.toInt_add]
  have : (directionWord d).toInt = directionInt d := by cases d <;> decide
  rw [this, Int.bmod_def]
  norm_num
  omega

/-! ### All axes -/

@[simp] theorem length_tickAxes (B : Word) (axes : List Axis) : (tickAxes B axes).length = axes.length := by simp [tickAxes]

@[simp] theorem getElem?_tickAxes (B : Word) (axes : List Axis) (i : Nat) :
    (tickAxes B axes)[i]? = axes[i]?.map fun a => (a.tick B).1 := by simp [tickAxes]

/-- The step events of axis i in one fan-out are those of its own tick (R160). -/
theorem stepsOf_tickEvents (B : Word) (axes : List Axis) (k i : Nat) :
    stepsOf (k + i) (tickEvents B k axes) =
      match axes[i]? with
      | some a => stepEvents (k + i) (a.tick B).2
      | none   => [] := by
  have own (j : Nat) (d : Option Direction) : stepsOf j (stepEvents j d) = stepEvents j d := by
    cases d <;> simp [stepsOf, stepEvents]
  have other (j l : Nat) (d : Option Direction) (h : l ≠ j) : stepsOf j (stepEvents l d) = [] := by
    cases d <;> simp [stepsOf, stepEvents, h]
  induction axes generalizing k i with
  | nil => simp [tickEvents, stepsOf]
  | cons a rest ih =>
    have happ (j : Nat) (xs ys : List StepEvent) : stepsOf j (xs ++ ys) = stepsOf j xs ++ stepsOf j ys := by simp [stepsOf]
    simp only [tickEvents, happ]
    cases i with
    | zero =>
      have hnone : stepsOf k (tickEvents B (k + 1) rest) = [] := by
        have later (axes : List Axis) (m : Nat) (hm : k < m) : stepsOf k (tickEvents B m axes) = [] := by
          induction axes generalizing m with
          | nil => simp [tickEvents, stepsOf]
          | cons b bs ihb => simp only [tickEvents, happ, other k m _ (by omega), ihb (m + 1) (by omega), List.append_nil]
        exact later rest (k + 1) (by omega)
      simp [own, hnone]
    | succ i =>
      have := ih (k + 1) i
      rw [show k + 1 + i = k + (i + 1) by omega] at this
      rw [this, other (k + (i + 1)) k _ (by omega)]
      simp

/-- TICK before SETUP has no effect (R160, decision D27). -/
theorem execTick_unconfigured {s : State} (h : s.registry.configured = false) : execTick s = .next s := by simp [execTick, h]

/-- TICK after SETUP: the fan-out and its step events. -/
theorem execTick_configured {s : State} (h : s.registry.configured = true) :
    execTick s = .next { s with
      axes := tickAxes s.params.homeTickBudget s.axes
      obs  := { s.obs with steps := s.obs.steps ++ tickEvents s.params.homeTickBudget 0 s.axes } } := by
  simp [execTick, h]

/-- Both cases of a TICK. -/
theorem execTick_cases {s t : State} (h : execTick s = .next t) :
    (s.registry.configured = false ∧ t = s) ∨
      (s.registry.configured = true ∧ t = { s with
        axes := tickAxes s.params.homeTickBudget s.axes
        obs  := { s.obs with steps := s.obs.steps ++ tickEvents s.params.homeTickBudget 0 s.axes } }) := by
  cases hc : s.registry.configured
  · rw [execTick_unconfigured hc] at h
    exact .inl ⟨rfl, by simpa using h.symm⟩
  · rw [execTick_configured hc] at h
    exact .inr ⟨rfl, by simpa using h.symm⟩

end Sys2Proof.Machine
end

