-- ==== Sys2Proof/Laws/Inputs.lean ====
section
/-! SUPPORT. Laws/Inputs.lean: which input a step takes, and everything a step can do. -/

namespace Sys2Proof.Machine

/-- The input taken is the first enabled one: what stands before it are RX bytes, and only while a Message is with the handler. -/
theorem takeInput_some {busy : Bool} {inbox rest : List Input} {i : Input} (h : takeInput busy inbox = some (i, rest)) :
    ∃ pre post, inbox = pre ++ i :: post ∧ rest = pre ++ post ∧ (∀ j ∈ pre, busy = true ∧ j.isRx = true) ∧
      (busy && i.isRx) = false := by
  induction inbox generalizing rest with
  | nil => simp [takeInput] at h
  | cons j js ih =>
    simp only [takeInput] at h
    split at h
    · next hj =>
      split at h
      · simp at h
      · next k others hk =>
        simp only [Option.some.injEq, Prod.mk.injEq] at h
        obtain ⟨rfl, rfl⟩ := h
        obtain ⟨pre, post, rfl, rfl, hpre, hi⟩ := ih hk
        refine ⟨j :: pre, post, rfl, rfl, ?_, hi⟩
        intro l hl
        rcases List.mem_cons.mp hl with rfl | hl
        · simpa using hj
        · exact hpre l hl
    · next hj =>
      simp only [Option.some.injEq, Prod.mk.injEq] at h
      obtain ⟨rfl, rfl⟩ := h
      exact ⟨[], js, rfl, rfl, by simp, by simpa using hj⟩

/-- An enabled input at the head is taken. -/
theorem takeInput_head {busy : Bool} {i : Input} {rest : List Input} (h : (busy && i.isRx) = false) :
    takeInput busy (i :: rest) = some (i, rest) := by simp [takeInput, h]

/-- Both cases of a step: nothing enabled, or one input delivered. -/
theorem step_cases {s t : State} (h : step s = .next t) :
    (takeInput s.parser.handlerBusy s.inbox = none ∧ t = s) ∨
      ∃ i rest, takeInput s.parser.handlerBusy s.inbox = some (i, rest) ∧ deliver i { s with inbox := rest } = .next t := by
  unfold step stepInput at h
  split at h
  · next hn => exact .inl ⟨hn, by simpa using h.symm⟩
  · next i rest hi => exact .inr ⟨i, rest, hi, h⟩

/-- What a delivered input can be: an instruction executed, a reserved op word answered, a LIMIT driven, a power-on, or a step of the
reference handler. -/
theorem deliver_cases {i : Input} {s t : State} (h : deliver i s = .next t) :
    (∃ p c, i = .port p ∧ decodePort p = .ok c ∧ exec c s = .next t) ∨
    (∃ w v, i = .port (.op w v) ∧ t = s.respond false 0) ∨
    (∃ k level, i = .limit k level ∧ t = s.driveLimit k level) ∨
    (i = .powerOn ∧ t = s.powerOn) ∨
    (i = .handler ∧ handlerStep s = .next t) := by
  cases i with
  | port p =>
    simp only [deliver, deliverPort] at h
    split at h
    · next c hc => exact .inl ⟨p, c, rfl, hc, h⟩
    · next e he =>
      cases p with
      | op w v =>
        refine .inr (.inl ⟨w, v, rfl, ?_⟩)
        simp only [decodePort, decodeOp] at he
        split at he
        · simp at he
        · simp only [Except.error.injEq] at he
          subst he
          simpa [rejected, failOp] using h.symm
      | reply m text =>
        simp only [decodePort] at he
        split at he
        · simp at he
        · simp only [Except.error.injEq] at he
          subst he
          simp [rejected] at h
      | tick => simp [decodePort] at he
      | rx b => simp [decodePort] at he
      | handlerDone => simp [decodePort] at he
  | limit k level => exact .inr (.inr (.inl ⟨k, level, rfl, by simpa [deliver] using h.symm⟩))
  | powerOn => exact .inr (.inr (.inr (.inl ⟨rfl, by simpa [deliver] using h.symm⟩)))
  | handler => exact .inr (.inr (.inr (.inr ⟨rfl, h⟩)))

/-- A step of the reference handler: nothing for it to do, or one instruction executed and its place moved on. -/
theorem handlerStep_cases {s t : State} (h : handlerStep s = .next t) :
    (s.parser.handlerBusy = false ∧ t = { s with handler := .idle }) ∨
    (s.parser.handlerBusy = true ∧ s.parser.msg.lineType = none ∧ t = s) ∨
    (s.parser.handlerBusy = true ∧ ∃ ty u, s.parser.msg.lineType = some ty ∧
      exec (handlerAction s.handler ty s.parser.msg) s = .next u ∧
      t = { u with handler := handlerNext s.handler ty s.parser.msg u.lastResponse }) := by
  unfold handlerStep at h
  split at h
  · next hb => exact .inl ⟨hb, by simpa using h.symm⟩
  · next hb =>
    simp only [Bool.not_eq_false] at hb
    split at h
    · next hn => exact .inr (.inl ⟨hb, hn, by simpa using h.symm⟩)
    · next ty hty =>
      split at h
      · next u hu => exact .inr (.inr ⟨hb, ty, u, hty, hu, by simpa using h.symm⟩)
      · simp at h
      · simp at h

end Sys2Proof.Machine
end

