-- ==== Sys2Proof/Laws/Memory.lean ====
section
/-! SUPPORT. Laws/Memory.lean: the laws of the Value Store: a write is read back, leaves every other offset alone and keeps the canonical
form. -/

namespace Sys2Proof.Machine

theorem Memory.wfFrom_mono {low low' : Nat} (m : Memory) (h : low' ≤ low) (hw : Memory.wfFrom low m = true) :
    Memory.wfFrom low' m = true := by
  cases m with
  | nil => rfl
  | cons c rest =>
    obtain ⟨k, b⟩ := c
    simp only [Memory.wfFrom, Bool.and_eq_true, decide_eq_true_eq] at hw ⊢
    exact ⟨⟨by omega, hw.1.2⟩, hw.2⟩

/-- Below its first offset a canonical store lists nothing. -/
theorem Memory.read_below {low : Nat} (m : Memory) (hw : Memory.wfFrom low m = true) {a : Nat} (ha : a < low) :
    m.read a = Memory.unlisted := by
  induction m generalizing low with
  | nil => rfl
  | cons c rest ih =>
    obtain ⟨k, b⟩ := c
    simp only [Memory.wfFrom, Bool.and_eq_true, decide_eq_true_eq] at hw
    have hk : k ≠ a := by omega
    simp only [Memory.read, hk, if_false]
    exact ih hw.2 (by omega)

theorem Memory.read_cons_same (a : Nat) (b : Byte) (rest : Memory) (h : rest.read a = Memory.unlisted) :
    (Memory.cons a b rest).read a = b := by
  unfold Memory.cons
  split
  · next hb => rw [h, hb]
  · simp [Memory.read]

theorem Memory.read_cons_other (a c : Nat) (b : Byte) (rest : Memory) (h : a ≠ c) :
    (Memory.cons a b rest).read c = rest.read c := by
  unfold Memory.cons
  split
  · rfl
  · simp [Memory.read, h]

theorem Memory.wfFrom_cons {low : Nat} (a : Nat) (b : Byte) (rest : Memory) (ha : low ≤ a)
    (h : Memory.wfFrom (a + 1) rest = true) : Memory.wfFrom low (Memory.cons a b rest) = true := by
  unfold Memory.cons
  split
  · exact Memory.wfFrom_mono rest (by omega) h
  · next hb => simp [Memory.wfFrom, ha, hb, h]

/-- A write leaves every other offset alone. -/
theorem Memory.read_write_other (m : Memory) (a c : Nat) (b : Byte) (h : a ≠ c) : (m.write a b).read c = m.read c := by
  induction m with
  | nil => simp [Memory.write, Memory.read_cons_other a c b [] h]
  | cons d rest ih =>
    obtain ⟨k, e⟩ := d
    simp only [Memory.write]
    split
    · exact Memory.read_cons_other a c b _ h
    · split
      · next hk =>
        subst hk
        rw [Memory.read_cons_other _ _ _ _ h]
        simp [Memory.read, h]
      · simp only [Memory.read]
        split
        · rfl
        · exact ih

/-- A write keeps the canonical form. -/
theorem Memory.wfFrom_write {low : Nat} (m : Memory) (a : Nat) (b : Byte) (ha : low ≤ a) (hw : Memory.wfFrom low m = true) :
    Memory.wfFrom low (m.write a b) = true := by
  induction m generalizing low with
  | nil => exact Memory.wfFrom_cons a b [] ha rfl
  | cons d rest ih =>
    obtain ⟨k, e⟩ := d
    simp only [Memory.write]
    have hw' := hw
    simp only [Memory.wfFrom, Bool.and_eq_true, decide_eq_true_eq] at hw'
    split
    · next hlt =>
      refine Memory.wfFrom_cons a b _ ha ?_
      simp only [Memory.wfFrom, Bool.and_eq_true, decide_eq_true_eq]
      exact ⟨⟨by omega, hw'.1.2⟩, hw'.2⟩
    · split
      · next hk => subst hk; exact Memory.wfFrom_cons _ b rest ha hw'.2
      · simp only [Memory.wfFrom, Bool.and_eq_true, decide_eq_true_eq]
        exact ⟨hw'.1, ih (by omega) hw'.2⟩

theorem Memory.wf_write (m : Memory) (a : Nat) (b : Byte) (hw : m.wf = true) : (m.write a b).wf = true :=
  Memory.wfFrom_write m a b (Nat.zero_le a) hw

theorem Memory.read_write_same_from {low : Nat} (m : Memory) (a : Nat) (b : Byte) (hw : Memory.wfFrom low m = true) :
    (m.write a b).read a = b := by
  induction m generalizing low with
  | nil => exact Memory.read_cons_same a b [] rfl
  | cons d rest ih =>
    obtain ⟨k, e⟩ := d
    simp only [Memory.wfFrom, Bool.and_eq_true, decide_eq_true_eq] at hw
    simp only [Memory.write]
    split
    · next hlt =>
      refine Memory.read_cons_same a b _ ?_
      have hk : k ≠ a := by omega
      simp only [Memory.read, hk, if_false]
      exact Memory.read_below rest hw.2 (by omega)
    · split
      · next hk => subst hk; exact Memory.read_cons_same _ b rest (Memory.read_below rest hw.2 (by omega))
      · next h1 h2 =>
        have hk : k ≠ a := fun h => h2 h.symm
        simp only [Memory.read, hk, if_false]
        exact ih hw.2

/-- A written byte is read back. -/
theorem Memory.read_write_same (m : Memory) (a : Nat) (b : Byte) (hw : m.wf = true) : (m.write a b).read a = b :=
  Memory.read_write_same_from m a b hw

/-- A write lists no offset but its own and those listed before. -/
theorem Memory.mem_write (m : Memory) (a : Nat) (b : Byte) (c : Host.Cell) (h : c ∈ m.write a b) : c.1 = a ∨ c ∈ m := by
  induction m with
  | nil =>
    simp only [Memory.write, Memory.cons] at h
    split at h <;> simp_all
  | cons d rest ih =>
    obtain ⟨k, e⟩ := d
    simp only [Memory.write, Memory.cons] at h
    split at h
    · split at h
      · exact .inr h
      · rcases List.mem_cons.mp h with rfl | h
        · exact .inl rfl
        · exact .inr h
    · split at h
      · split at h
        · exact .inr (List.mem_cons_of_mem _ h)
        · rcases List.mem_cons.mp h with rfl | h
          · exact .inl rfl
          · exact .inr (List.mem_cons_of_mem _ h)
      · rcases List.mem_cons.mp h with rfl | h
        · exact .inr List.mem_cons_self
        · rcases ih h with h | h
          · exact .inl h
          · exact .inr (List.mem_cons_of_mem _ h)

/-! ### A run of bytes -/

theorem Memory.wf_writeBytes (m : Memory) (off : Nat) (bs : List Byte) (hw : m.wf = true) : (m.writeBytes off bs).wf = true := by
  induction bs generalizing m off with
  | nil => exact hw
  | cons b bs ih => exact ih _ _ (Memory.wf_write m off b hw)

/-- A run of bytes leaves every offset outside it alone. -/
theorem Memory.read_writeBytes_outside (m : Memory) (off : Nat) (bs : List Byte) (a : Nat)
    (h : a < off ∨ off + bs.length ≤ a) : (m.writeBytes off bs).read a = m.read a := by
  induction bs generalizing m off with
  | nil => rfl
  | cons b bs ih =>
    simp only [List.length_cons] at h
    simp only [Memory.writeBytes]
    rw [ih _ _ (by omega), Memory.read_write_other _ _ _ _ (by omega)]

/-- A run of bytes is read back. -/
theorem Memory.read_writeBytes_inside (m : Memory) (off : Nat) (bs : List Byte) (hw : m.wf = true) (k : Nat)
    (h : k < bs.length) : (m.writeBytes off bs).read (off + k) = bs[k] := by
  induction bs generalizing m off k with
  | nil => simp at h
  | cons b bs ih =>
    simp only [Memory.writeBytes]
    cases k with
    | zero =>
      rw [Memory.read_writeBytes_outside _ _ _ _ (by omega)]
      simpa using Memory.read_write_same m off b hw
    | succ k =>
      have := ih (m.write off b) (off + 1) (Memory.wf_write m off b hw) k (by simpa using h)
      simpa [Nat.add_assoc, Nat.add_comm 1 k] using this

theorem Memory.mem_writeBytes (m : Memory) (off : Nat) (bs : List Byte) (c : Host.Cell) (h : c ∈ m.writeBytes off bs) :
    (off ≤ c.1 ∧ c.1 < off + bs.length) ∨ c ∈ m := by
  induction bs generalizing m off with
  | nil => exact .inr h
  | cons b bs ih =>
    simp only [List.length_cons]
    rcases ih _ _ h with h | h
    · exact .inl (by omega)
    · rcases Memory.mem_write m off b c h with h | h
      · exact .inl (by omega)
      · exact .inr h

end Sys2Proof.Machine
end

