-- ==== Sys2Proof/Laws/PerInstr.lean ====
section
/-! SUPPORT. Laws/PerInstr.lean: one lemma per instruction: its encoding has the form spec/opcode_table.json gives its row. -/

namespace Sys2Proof.Laws.OpcodeTable

open Sys2Proof

/-- The three forms of the table's rows. -/
inductive Form where
  /-- An OP request: the value of its fixed bits 15..8. -/
  | op (value : BitVec 8)
  /-- A command line: its first token. -/
  | line (keyword : List Byte)
  /-- An event on a port of its own. -/
  | event
  deriving DecidableEq, Repr

/-- The form column, transcribed. -/
def form : Instr → Form
  | .moveAbs _ _        => .op 0x01
  | .moveRel _ _        => .op 0x02
  | .home _             => .op 0x03
  | .setPos _ _         => .op 0x04
  | .axisReset _        => .op 0x05
  | .getPos _           => .op 0x10
  | .busy _             => .op 0x11
  | .checkFinished _    => .op 0x12
  | .getState _         => .op 0x13
  | .getMaxvel _        => .op 0x20
  | .setMaxvel _ _      => .op 0x21
  | .getAccel _         => .op 0x22
  | .setAccel _ _       => .op 0x23
  | .getStopmode _      => .op 0x24
  | .setStopmode _ _    => .op 0x25
  | .getHomedir _       => .op 0x26
  | .getCanhome _       => .op 0x27
  | .setup _            => .op 0x30
  | .getAxis _          => .op 0x31
  | .saveSettings _     => .op 0x32
  | .restoreSettings _  => .op 0x33
  | .lineGo _ _         => .line (ascii "GO")
  | .lineSet _ _ _      => .line (ascii "SET")
  | .lineGet _ _        => .line (ascii "GET")
  | .lineHome _         => .line (ascii "HOME")
  | .lineState _        => .line (ascii "STATE")
  | .lineAlive          => .line (ascii "ALIVE")
  | .tick               => .event
  | .rx _               => .event
  | .reply _ _          => .event
  | .handlerDone        => .event

/-- The encoding of the instruction has the form of its row. -/
def Statement (i : Instr) : Prop :=
  match form i with
  | .op value     => ∃ w v, encode i = .port (.op w v) ∧ opcodeField w = value
  | .line keyword => ∃ bytes, encode i = .line bytes ∧ (tokenize bytes).head? = some keyword
  | .event        => ∃ p, encode i = .port p ∧ ∀ w v, p ≠ .op w v

theorem opForm (op axis : BitVec 8) (v : Word) : ∃ w u, opEncoding op axis v = .port (.op w u) ∧ opcodeField w = op :=
  ⟨op ++ axis, v, rfl, opcodeField_append op axis⟩

theorem lineForm (t : LineType) (values : List (List Byte)) (h : ∀ u ∈ values, u ≠ [] ∧ 0x20#8 ∉ u) :
    ∃ bytes, lineEncoding t values = .line bytes ∧ (tokenize bytes).head? = some t.keyword := by
  refine ⟨_, rfl, ?_⟩
  rw [tokenize_joinTokens _ (by simpa [t.keyword_token] using h)]
  rfl

theorem moveAbs (a : BitVec 8) (v : Word) : Statement (.moveAbs a v) := opForm 0x01#8 a v
theorem moveRel (a : BitVec 8) (v : Word) : Statement (.moveRel a v) := opForm 0x02#8 a v
theorem home (a : BitVec 8) : Statement (.home a) := opForm 0x03#8 a 0
theorem setPos (a : BitVec 8) (v : Word) : Statement (.setPos a v) := opForm 0x04#8 a v
theorem axisReset (a : BitVec 8) : Statement (.axisReset a) := opForm 0x05#8 a 0
theorem getPos (a : BitVec 8) : Statement (.getPos a) := opForm 0x10#8 a 0
theorem busy (a : BitVec 8) : Statement (.busy a) := opForm 0x11#8 a 0
theorem checkFinished (a : BitVec 8) : Statement (.checkFinished a) := opForm 0x12#8 a 0
theorem getState (a : BitVec 8) : Statement (.getState a) := opForm 0x13#8 a 0
theorem getMaxvel (a : BitVec 8) : Statement (.getMaxvel a) := opForm 0x20#8 a 0
theorem setMaxvel (a : BitVec 8) (v : Word) : Statement (.setMaxvel a v) := opForm 0x21#8 a v
theorem getAccel (a : BitVec 8) : Statement (.getAccel a) := opForm 0x22#8 a 0
theorem setAccel (a : BitVec 8) (v : Word) : Statement (.setAccel a v) := opForm 0x23#8 a v
theorem getStopmode (a : BitVec 8) : Statement (.getStopmode a) := opForm 0x24#8 a 0
theorem setStopmode (a : BitVec 8) (v : Word) : Statement (.setStopmode a v) := opForm 0x25#8 a v
theorem getHomedir (a : BitVec 8) : Statement (.getHomedir a) := opForm 0x26#8 a 0
theorem getCanhome (a : BitVec 8) : Statement (.getCanhome a) := opForm 0x27#8 a 0
theorem setup (v : Word) : Statement (.setup v) := opForm 0x30#8 0 v
theorem getAxis (a : BitVec 8) : Statement (.getAxis a) := opForm 0x31#8 a 0
theorem saveSettings (v : Word) : Statement (.saveSettings v) := opForm 0x32#8 0 v
theorem restoreSettings (v : Word) : Statement (.restoreSettings v) := opForm 0x33#8 0 v
theorem lineGo (a t : Word) : Statement (.lineGo a t) := lineForm .go _ (by simp [decInt_token])
theorem lineSet (a : Word) (p : Param) (v : Word) : Statement (.lineSet a p v) :=
  lineForm .set _ (by simp [decInt_token, p.keyword_token])
theorem lineGet (a : Word) (p : Param) : Statement (.lineGet a p) := lineForm .get _ (by simp [decInt_token, p.keyword_token])
theorem lineHome (a : Word) : Statement (.lineHome a) := lineForm .home _ (by simp [decInt_token])
theorem lineState (a : Word) : Statement (.lineState a) := lineForm .state _ (by simp [decInt_token])
theorem lineAlive : Statement .lineAlive := lineForm .alive _ (by simp)
theorem tick : Statement .tick := ⟨_, rfl, by simp⟩
theorem rx (b : Byte) : Statement (.rx b) := ⟨_, rfl, by simp⟩
theorem reply (m : Marker) (text : List Byte) : Statement (.reply m text) := ⟨_, rfl, by simp⟩
theorem handlerDone : Statement .handlerDone := ⟨_, rfl, by simp⟩

end Sys2Proof.Laws.OpcodeTable
end

