-- ==== Sys2Proof/Laws/Profile.lean ====
section
/-! SUPPORT. Laws/Profile.lean: what the arithmetic of the profile computes (40_axis_motion.md R101-R103). -/

namespace Sys2Proof.Machine

/-- `ceilDiv` is the least q with q*b >= a (R5). -/
theorem ceilDiv_le_iff (a b q : Nat) (hb : 0 < b) : ceilDiv a b ≤ q ↔ a ≤ q * b := by
  unfold ceilDiv
  rw [Nat.div_le_iff_le_mul_add_pred hb, Nat.mul_comm b q]
  omega

theorem le_ceilDiv_mul (a b : Nat) (hb : 0 < b) : a ≤ ceilDiv a b * b := (ceilDiv_le_iff a b _ hb).mp le_rfl

/-- The search brackets the threshold, if it did so at its start. -/
theorem greatestBelow_brackets (A x bits low : Nat) (h1 : low * low * A < x)
    (h2 : x ≤ (low + 2 ^ bits) * (low + 2 ^ bits) * A) :
    greatestBelow A x bits low * greatestBelow A x bits low * A < x ∧
      x ≤ (greatestBelow A x bits low + 1) * (greatestBelow A x bits low + 1) * A := by
  induction bits generalizing low with
  | zero => exact ⟨h1, h2⟩
  | succ bits ih =>
    simp only [greatestBelow]
    split
    · next h =>
      refine ih _ h ?_
      have : low + 2 ^ bits + 2 ^ bits = low + 2 ^ (bits + 1) := by rw [pow_succ]; omega
      rw [this]
      exact h2
    · next h => exact ih _ h1 (by omega)

/-- `leastSquare A x` is the least n with n*n*A >= x (R102, the triangle's search). -/
theorem leastSquare_isLeast (A x : Nat) (hA : 0 < A) : IsLeast { n | x ≤ n * n * A } (leastSquare A x) := by
  unfold leastSquare
  split
  · next h => subst h; exact ⟨Nat.zero_le _, fun n _ => Nat.zero_le n⟩
  · next h =>
    have hx : x < 2 ^ (x.log2 + 1) := Nat.lt_log2_self
    have hsq : x ≤ (0 + 2 ^ (x.log2 + 1)) * (0 + 2 ^ (x.log2 + 1)) * A := by
      have h1 : 1 ≤ 2 ^ (x.log2 + 1) := Nat.one_le_two_pow
      rw [Nat.zero_add]
      calc x ≤ 2 ^ (x.log2 + 1) := hx.le
        _ = 2 ^ (x.log2 + 1) * 1 * 1 := by ring
        _ ≤ 2 ^ (x.log2 + 1) * 2 ^ (x.log2 + 1) * A := Nat.mul_le_mul (Nat.mul_le_mul_left _ h1) hA
    obtain ⟨h1, h2⟩ := greatestBelow_brackets A x (x.log2 + 1) 0 (by simpa using Nat.pos_of_ne_zero h) hsq
    refine ⟨h2, fun n hn => ?_⟩
    by_contra hlt
    have hle : n ≤ greatestBelow A x (x.log2 + 1) 0 := by omega
    have hmul : n * n * A ≤ greatestBelow A x (x.log2 + 1) 0 * greatestBelow A x (x.log2 + 1) 0 * A :=
      Nat.mul_le_mul_right _ (Nat.mul_le_mul hle hle)
    have hge : x ≤ n * n * A := hn
    omega

end Sys2Proof.Machine
end

