-- ==== Sys2Proof/Tests/Slice0.lean ====
section
/-! SUPPORT. Tests/Slice0.lean: tests with results taken from spec/95_test_vectors.md (its V- numbers stand at each test) or worked out from the
rule named, and for every obligation with hypotheses a concrete state that meets them. -/

namespace Sys2Proof.Tests

open Sys2Proof Sys2Proof.Machine

/-! ### Small states -/

/-- S0 is State.reset; Booted(f) of 95_test_vectors.md. -/
def booted (f : Word) : State := State.bootedOf Build.standard f

/-- One axis edited. -/
def edit (s : State) (i : Nat) (f : Axis → Axis) : State := { s with axes := s.axes.modify i f }

/-- Axis 0 put in a run state. -/
def inState (r : RunState) : State := edit (booted 1000) 0 fun a => { a with state := r }

/-- The state an instruction leaves. -/
def after (i : Instr) (s : State) : State :=
  match exec i s with
  | .next t    => t
  | .fault _   => s
  | .refused _ => s

/-- The state bytes on RX leave. -/
def received (bytes : List Byte) (s : State) : State :=
  match rxRun bytes s with
  | .next t    => t
  | .fault _   => s
  | .refused _ => s

/-- The state steps of the reference handler leave. -/
def handled (k : Nat) (s : State) : State :=
  match handlerRun k s with
  | .next t    => t
  | .fault _   => s
  | .refused _ => s

/-- The state one step leaves. -/
def stepOnce (s : State) : Option State :=
  match step s with
  | .next t    => some t
  | .fault _   => none
  | .refused _ => none

/-- The newest answer. -/
def answer (s : State) : Option (Bool × Word) := s.obs.responses.getLast?.map fun r => (r.ok, r.result)

/-- A machine with a Message at the handler. -/
def busyHandler : State := { State.reset with parser := { State.reset.parser with handlerBusy := true } }

/-- A line in the buffer of S0. -/
def typed (text : String) : State := { State.reset with parser := { State.reset.parser with buf := ascii text } }

/-- Axis 0 and axis 1 of Booted(f). -/
def axis0 : Axis := Axis.resetOf { init := { maxVelocity := 500, acceleration := 1000, stopMode := .hold, homeDirection := .minus, canHome := true }, hasLimit := true } false
def axis1 : Axis := Axis.resetOf { init := { maxVelocity := 10, acceleration := 10, stopMode := .disable, homeDirection := .plus, canHome := false }, hasLimit := false } false

/-- The move of V-TK-1: 3 steps over 5 ticks. -/
def moving : Axis := { axis0 with state := .moving, runLength := 3, riseLength := 5, stepsRemaining := 3, enable := true }

/-- Booted(1000) with axis 0 as given. -/
def withAxis (a : Axis) : State := edit (booted 1000) 0 fun _ => a

/-! ### WellFormed refuses an ill-formed term for each check -/

theorem test_wf_set_axis_high : (Instr.lineSet 2 .accel 5).wellFormed 2 = false := by decide
theorem test_wf_get_axis_negative : (Instr.lineGet (-1) .maxvel).wellFormed 2 = false := by decide
theorem test_wf_reply_text : (Instr.reply .ack [0x41, 0x0D]).wellFormed 2 = false := by decide

/-! ### Decoding: W = opcode ++ axis (R70, R72), the lines of R77 as bytes -/

theorem test_decode_moveAbs : decode 2 (.port (.op 0x0100#16 0x3E8#32)) = .ok (.moveAbs 0#8 1000#32) := by decide
theorem test_decode_moveRel : decode 2 (.port (.op 0b0000001000000001#16 0xFFFFFFFD#32)) = .ok (.moveRel 1#8 (-3#32)) := by decide
theorem test_decode_home : decode 2 (.port (.op 0x03FF#16 7#32)) = .ok (.home 255#8) := by decide
theorem test_decode_setPos : decode 2 (.port (.op 0x0400#16 0xFFFFFFFB#32)) = .ok (.setPos 0#8 (-5#32)) := by decide
theorem test_decode_axisReset : decode 2 (.port (.op 0x0500#16 0#32)) = .ok (.axisReset 0#8) := by decide
theorem test_decode_getPos : decode 2 (.port (.op 0b0001000000000011#16 0#32)) = .ok (.getPos 3#8) := by decide
theorem test_decode_busy : decode 2 (.port (.op 0x1100#16 0#32)) = .ok (.busy 0#8) := by decide
theorem test_decode_checkFinished : decode 2 (.port (.op 0x1201#16 0#32)) = .ok (.checkFinished 1#8) := by decide
theorem test_decode_getState : decode 2 (.port (.op 0x1300#16 0#32)) = .ok (.getState 0#8) := by decide
theorem test_decode_getMaxvel : decode 2 (.port (.op 0x2000#16 0#32)) = .ok (.getMaxvel 0#8) := by decide
theorem test_decode_setMaxvel : decode 2 (.port (.op 0b0010000100000000#16 0xC8#32)) = .ok (.setMaxvel 0#8 200#32) := by decide
theorem test_decode_getAccel : decode 2 (.port (.op 0x2200#16 0#32)) = .ok (.getAccel 0#8) := by decide
theorem test_decode_setAccel : decode 2 (.port (.op 0x2300#16 0xFFFFFFF9#32)) = .ok (.setAccel 0#8 (-7#32)) := by decide
theorem test_decode_getStopmode : decode 2 (.port (.op 0x2401#16 0#32)) = .ok (.getStopmode 1#8) := by decide
theorem test_decode_setStopmode : decode 2 (.port (.op 0x2500#16 1#32)) = .ok (.setStopmode 0#8 1#32) := by decide
theorem test_decode_getHomedir : decode 2 (.port (.op 0x2600#16 0#32)) = .ok (.getHomedir 0#8) := by decide
theorem test_decode_getCanhome : decode 2 (.port (.op 0x2701#16 0#32)) = .ok (.getCanhome 1#8) := by decide
theorem test_decode_setup : decode 2 (.port (.op 0b0011000010101010#16 0x3E8#32)) = .ok (.setup 1000#32) := by decide
theorem test_decode_getAxis : decode 2 (.port (.op 0x3102#16 0#32)) = .ok (.getAxis 2#8) := by decide
theorem test_decode_saveSettings : decode 2 (.port (.op 0x3200#16 0xA#32)) = .ok (.saveSettings 10#32) := by decide
theorem test_decode_restoreSettings : decode 2 (.port (.op 0x3300#16 0xA#32)) = .ok (.restoreSettings 10#32) := by decide
theorem test_decode_lineGo : decode 2 (.line [0x47, 0x4F, 0x20, 0x30, 0x20, 0x31, 0x30, 0x30, 0x30]) = .ok (.lineGo 0#32 1000#32) := by decide
theorem test_decode_lineSet : decode 2 (.line [0x53, 0x45, 0x54, 0x20, 0x30, 0x20, 0x4D, 0x41, 0x58, 0x56, 0x45, 0x4C, 0x20, 0x32, 0x30, 0x30]) =
    .ok (.lineSet 0#32 .maxvel 200#32) := by decide
theorem test_decode_lineGet : decode 2 (.line [0x47, 0x45, 0x54, 0x20, 0x31, 0x20, 0x41, 0x43, 0x43, 0x45, 0x4C]) = .ok (.lineGet 1#32 .accel) := by decide
theorem test_decode_lineHome : decode 2 (.line [0x48, 0x4F, 0x4D, 0x45, 0x20, 0x31]) = .ok (.lineHome 1#32) := by decide
theorem test_decode_lineState : decode 2 (.line [0x53, 0x54, 0x41, 0x54, 0x45, 0x20, 0x2D, 0x31]) = .ok (.lineState (-1#32)) := by decide
theorem test_decode_lineAlive : decode 2 (.line [0x41, 0x4C, 0x49, 0x56, 0x45, 0x20]) = .ok .lineAlive := by decide
theorem test_decode_tick : decode 2 (.port .tick) = .ok .tick := by decide
theorem test_decode_rx : decode 2 (.port (.rx 0x07)) = .ok (.rx 0x07) := by decide
theorem test_decode_reply : decode 2 (.port (.reply .ack [0x32, 0x7E])) = .ok (.reply .ack [0x32, 0x7E]) := by decide
theorem test_decode_handlerDone : decode 2 (.port .handlerDone) = .ok .handlerDone := by decide

/-- V-AX-21. -/
theorem test_decode_reserved : decode 2 (.port (.op 0x0600#16 0#32)) = .error (.reservedOpcode 0x06#8) := by decide

/-- The table's numbering (log 10): W is bits 15..0, OPND bits 47..16. -/
theorem test_decodeTableWord : decodeTableWord 48 0x000003E80100 = some (.moveAbs 0#8 1000#32) ∧ decodeTableWord 16 0x0301 = some (.home 1#8) := by
  decide

/-- V-PR-7, V-PR-8, V-PR-11: spaces, -0 and leading zeros, the least int32. -/
theorem test_line_spellings :
    decode 2 (.line (ascii "  GO   1   -20  ")) = .ok (.lineGo 1#32 (-20#32)) ∧ decode 2 (.line (ascii "GO -0 007")) = .ok (.lineGo 0#32 7#32) ∧
    decode 2 (.line (ascii "GO 0 -2147483648")) = .ok (.lineGo 0#32 0x80000000#32) := by decide

/-- V-PR-17, V-PR-18. -/
theorem test_line_unknownCommand :
    decode 2 (.line (ascii "Alive")) = .error (.line .unknownCommand) ∧ decode 2 (.line (ascii "GOO 1 2")) = .error (.line .unknownCommand) := by decide

/-- V-PR-19, V-PR-21 to V-PR-27. -/
theorem test_line_badInteger :
    (["GO x", "GO 0 2147483648", "GO 0 -2147483649", "GO 0 +5", "GO 0 -", "GO 0 --5", "HOME 99999999999", "GO x y z"].map fun l => decode 2 (.line (ascii l))) =
      List.replicate 8 (.error (.line .badInteger)) := by decide

/-- V-PR-28 to V-PR-38. -/
theorem test_line_other_errors :
    (["GET 0 maxvel", "SET 0 SPEED x", "SET 2 MAXVEL 5", "SET -1 ACCEL 5", "GET 0", "SET 0 MAXVEL", "HOME 0 1", "GET 0 MAXVEL x", "GO 1 2 3 x"].map
      fun l => decode 2 (.line (ascii l))) =
      [.error (.line .unknownParameter), .error (.line .unknownParameter), .error (.line .badAxis), .error (.line .badAxis),
       .error (.line .tooFewFields), .error (.line .tooFewFields), .error (.line .tooManyFields), .error (.line .tooManyFields),
       .error (.line .tooManyFields)] := by decide

/-! ### The profile -/

/-- V-PF-1 to V-PF-11. -/
theorem test_profile_ticks :
    profileTicks 1000 500 1000 1000 = 2500 ∧ profileTicks 3 10 10 10 = 11 ∧ profileTicks 3 2 4 10 = 20 ∧ profileTicks 5 1000 1000 1 = 1 ∧
    profileTicks 10 10 10 1 = 2 ∧ profileTicks 1 1 1 100 = 200 ∧ profileTicks 100 500 1000 1000 = 633 ∧ profileTicks 250 500 1000 1000 = 1000 ∧
    profileTicks 1000 200 1000 1000 = 5200 ∧ profileTicks 10 500 1000 1000 = 200 ∧ profileTicks 3 10 10 1000 = 1096 := by decide

/-- V-PF-12 to V-PF-14. -/
theorem test_profile_large :
    profileTicks 2147483648 2147483647 2147483647 1 = 3 ∧ profileTicks 4294967295 2147483647 2147483647 1 = 4 ∧
    profileTicks 2 1 1 4294967295 = 12884901885 ∧ riseTicks 5 1000 1000 1 = 5 := by decide

/-! ### OPs -/

/-- V-AX-3. -/
theorem test_moveAbs :
    answer (after (.moveAbs 0 1000) (booted 1000)) = some (true, 2500) ∧
    (after (.moveAbs 0 1000) (booted 1000)).axes[0]? =
      some { axis0 with state := .moving, direction := .plus, dir := true, runLength := 1000, riseLength := 2500, error := 0,
                        stepsRemaining := 1000, enable := true } := by decide

/-- V-AX-8, the largest legal move. -/
theorem test_moveAbs_largest :
    answer (after (.moveAbs 0 0x7FFFFFFF) (edit (booted 1) 0 fun a => { a with position := 0x80000000, config := { a.config with maxVelocity := 0x7FFFFFFF, acceleration := 0x7FFFFFFF } })) =
      some (true, 0xFFFFFFFF) := by decide

/-- V-AX-5. -/
theorem test_moveRel :
    answer (after (.moveRel 1 (-3)) (booted 10)) = some (true, 11) ∧
    (after (.moveRel 1 (-3)) (booted 10)).axes[1]?.map (fun a => (a.direction, a.dir, a.runLength)) = some (.minus, false, 3) := by decide

/-- V-AX-7: the target leaves int32. -/
theorem test_moveRel_range :
    answer (after (.moveRel 0 0x80000000) (edit (booted 1) 0 fun a => { a with position := -1, config := { a.config with maxVelocity := 0x7FFFFFFF, acceleration := 0x7FFFFFFF } })) =
      some (false, 0) := by decide

/-- V-AX-14. -/
theorem test_home :
    (after (.home 0) (booted 1000)).axes[0]? =
      some { axis0 with state := .homingSeek, direction := .minus, dir := false, stepsRemaining := 100, enable := true } := by decide

/-- V-AX-15. -/
theorem test_home_refused : after (.home 1) (booted 1000) = (booted 1000).respond false 0 := by decide

/-- V-AX-16. -/
theorem test_setPos : (after (.setPos 0 (-5)) (withAxis { axis0 with position := 1000 })).axes[0]? = some { axis0 with position := 0xFFFFFFFB } := by decide

/-- V-AX-17. -/
theorem test_setPos_latched : answer (after (.setPos 0 7) (inState .finishedHoming)) = some (false, 0) := by decide

/-- V-AX-18, from Error at -100. -/
theorem test_axisReset :
    (after (.axisReset 0) (withAxis { axis0 with state := .error, position := -100, direction := .minus, dir := false, enable := true, step := true })).axes[0]? =
      some { axis0 with enable := true, step := true } := by decide

/-- V-AX-19. -/
theorem test_axisReset_ready : answer (after (.axisReset 0) (booted 1000)) = some (false, 0) := by decide

/-- V-AC-20. -/
theorem test_getPos : answer (after (.getPos 3) (booted 1000)) = some (false, 0) ∧ answer (after (.getPos 0) (withAxis { axis0 with position := 500 })) = some (true, 500) := by
  decide

/-- V-AC-2, V-AC-3. -/
theorem test_busy : answer (after (.busy 0) (inState .moving)) = some (true, 1) ∧ answer (after (.busy 0) (inState .error)) = some (true, 0) := by decide

/-- V-AC-4, V-AC-6. -/
theorem test_checkFinished :
    after (.checkFinished 0) (inState .finishedMoving) = (inState .ready).respond true 1 ∧
    after (.checkFinished 0) (inState .moving) = (inState .moving).respond true 0 := by decide

/-- V-AC-8. -/
theorem test_getState : after (.getState 0) (inState .finishedHoming) = (inState .finishedHoming).respond true 5 := by decide

/-- V-AC-9, V-AC-10, V-AC-11. -/
theorem test_getters :
    answer (after (.getMaxvel 0) .reset) = some (true, 500) ∧ answer (after (.getAccel 0) .reset) = some (true, 1000) ∧
    answer (after (.getStopmode 1) .reset) = some (true, 1) ∧ answer (after (.getHomedir 0) .reset) = some (true, 0xFFFFFFFF) ∧
    answer (after (.getCanhome 1) .reset) = some (true, 0) := by decide

/-- V-AC-15, V-AC-13. -/
theorem test_setMaxvel :
    (after (.setMaxvel 0 0x7FFFFFFF) .reset).axes[0]?.map (fun a => a.config.maxVelocity) = some 0x7FFFFFFF ∧
    answer (after (.setMaxvel 0 0) .reset) = some (false, 0) := by decide

/-- V-AC-18, V-AC-14. -/
theorem test_setAccel :
    after (.setAccel 0 50) (inState .error) = State.respond (edit (inState .error) 0 fun a => { a with config := { a.config with acceleration := 50 } }) true 0 ∧
    answer (after (.setAccel 0 (-7)) .reset) = some (false, 0) := by decide

/-- V-AC-17, V-AC-16. -/
theorem test_setStopmode :
    (after (.setStopmode 0 1) (withAxis { axis0 with enable := true })).axes[0]?.map (fun a => (a.config.stopMode, a.enable)) = some (.disable, true) ∧
    answer (after (.setStopmode 0 2) .reset) = some (false, 0) := by decide

/-- V-RG-1, V-RG-3. -/
theorem test_setup : answer (after (.setup 0) .reset) = some (false, 0) ∧ after (.setup 500) (booted 1000) = (booted 1000).respond false 0 := by decide

/-- V-RG-4. -/
theorem test_getAxis : answer (after (.getAxis 1) .reset) = some (true, 0) ∧ answer (after (.getAxis 2) .reset) = some (false, 0) := by decide

/-- V-RG-5, the bytes of both records. -/
theorem test_saveSettings :
    ((List.range 24).map fun k => (after (.saveSettings 10) (after (.setStopmode 0 1) .reset)).store.read (9 + k)) =
      [0x00, 0xF4, 0x01, 0x00, 0x00, 0xE8, 0x03, 0x00, 0x00, 0x01, 0x01, 0x01, 0x0A, 0x00, 0x00, 0x00, 0x0A, 0x00, 0x00, 0x00, 0x01, 0x00, 0x00,
        0x00] := by decide

/-- V-RG-6, V-RG-7. -/
theorem test_saveSettings_bound :
    answer (after (.saveSettings 42) .reset) = some (true, 64) ∧ answer (after (.saveSettings 43) .reset) = some (false, 0) ∧
    answer (after (.saveSettings 0xFFFFFFFF) .reset) = some (false, 0) := by decide

/-- V-RG-8. -/
theorem test_restoreSettings :
    (after (.restoreSettings 0)
      { State.reset with store := Memory.writeBytes [] 0 [0xFF, 0xFF, 0xFF, 0xFF, 0x00, 0x00, 0x00, 0x80, 0x07, 0x02, 0x09] }).axes.map (fun a => a.config) =
      [{ maxVelocity := -1, acceleration := 0x80000000, stopMode := .disable, homeDirection := .minus, canHome := true },
       { maxVelocity := 0, acceleration := 0, stopMode := .hold, homeDirection := .plus, canHome := false }] := by decide

/-- V-RG-9. -/
theorem test_restoreSettings_busy : answer (after (.restoreSettings 0) (inState .homingSeek)) = some (false, 0) := by decide

/-! ### Lines, bytes, replies -/

/-- V-PR-1. -/
theorem test_lineGo : (received [0x0D] (typed "GO 0 1000")).parser.msg = { type := 0, typeDefIndex := 0, fields := #v[0, 1000, 0, 0] } := by decide
/-- V-PR-12. -/
theorem test_lineSet : (received [0x0D] (typed "SET 0 STOPMODE 1")).parser.msg = { type := 1, typeDefIndex := 1, fields := #v[0, 2, 1, 0] } := by decide
/-- V-PR-3. -/
theorem test_lineGet : (received [0x0A] (typed "GET 1 ACCEL")).parser.msg = { type := 2, typeDefIndex := 2, fields := #v[1, 1, 0, 0] } := by decide
/-- V-PR-4. -/
theorem test_lineHome : (received [0x0D] (typed "HOME 1")).parser.msg = { type := 3, typeDefIndex := 3, fields := #v[1, 0, 0, 0] } := by decide
/-- V-PR-15. -/
theorem test_lineState : (received [0x0D] (typed "STATE -1")).parser.msg = { type := 4, typeDefIndex := 4, fields := #v[0xFFFFFFFF, 0, 0, 0] } := by decide
/-- V-PR-6, V-LI-1. -/
theorem test_lineAlive :
    (received [0x0D, 0x0A] (typed "ALIVE")).parser =
      { buf := [], discarding := false, msg := { type := 5, typeDefIndex := 5, fields := #v[0, 0, 0, 0] }, handlerBusy := true } := by decide

/-- V-PR-16, byte for byte. -/
theorem test_unknown_reply :
    (received (ascii "FOO" ++ [0x0D]) .reset).obs.tx =
      [0x45, 0x52, 0x52, 0x4F, 0x52, 0x20, 0x55, 0x4E, 0x4B, 0x4E, 0x4F, 0x57, 0x4E, 0x20, 0x43, 0x4F, 0x4D, 0x4D, 0x41, 0x4E, 0x44, 0x0D, 0x0A] := by
  decide

/-- V-LI-9. -/
theorem test_overflow_recovers :
    (received (List.replicate 17 0x41 ++ [0x0D, 0x0A] ++ ascii "ALIVE" ++ [0x0D]) .reset).obs =
      { steps := [], responses := [], tx := ascii "ERROR LINE TOO LONG" ++ [0x0D, 0x0A],
        messages := [{ type := 5, typeDefIndex := 5, fields := #v[0, 0, 0, 0] }] } := by decide

/-- V-LI-6: the tab is dropped. -/
theorem test_tab_dropped : (received ([0x47, 0x4F, 0x09] ++ ascii "0 5") .reset).parser.buf = ascii "GO0 5" := by decide

/-- V-RH-1, V-RH-2, V-RH-3. -/
theorem test_reply :
    (after (.reply .ack [0x32, 0x30, 0x30]) busyHandler).obs.tx = [0x41, 0x43, 0x4B, 0x20, 0x32, 0x30, 0x30, 0x0D, 0x0A] ∧
    (after (.reply .error []) busyHandler).obs.tx = [0x45, 0x52, 0x52, 0x4F, 0x52, 0x0D, 0x0A] ∧
    after (.reply .ack [0x78]) .reset = .reset := by decide

/-- R263, V-RH-3. -/
theorem test_handlerDone : after .handlerDone busyHandler = .reset ∧ after .handlerDone .reset = .reset := by decide

/-- V-RH-4: GO over the wire. -/
theorem test_refHandler_go : (handled 5 (received (ascii "GO 0 1000" ++ [0x0D]) (booted 1000))).obs.tx = ascii "ACK 2500" ++ [0x0D, 0x0A] := by decide

/-- V-RH-7: STATE consumes the latch. -/
theorem test_refHandler_state :
    (handled 6 (received (ascii "STATE 0" ++ [0x0D]) (withAxis { axis0 with state := .finishedMoving, position := 1000 }))).obs.tx =
      ascii "ACK 2 1000" ++ [0x0D, 0x0A] := by decide

/-- V-RH-6, V-RH-10, V-RH-14. -/
theorem test_refHandler_others :
    (handled 2 (received (ascii "GO 300 1" ++ [0x0D]) .reset)).obs.tx = ascii "ERROR BAD AXIS" ++ [0x0D, 0x0A] ∧
    (handled 3 (received (ascii "SET 0 STOPMODE 7" ++ [0x0D]) .reset)).obs.tx = ascii "ERROR REJECTED" ++ [0x0D, 0x0A] ∧
    (handled 3 (received (ascii "GET 0 MAXVEL" ++ [0x0D]) (inState .moving))).obs.tx = ascii "ACK 500" ++ [0x0D, 0x0A] := by decide

/-! ### The tick -/

/-- V-TK-1, ticks 2 and 5. -/
theorem test_tick_moving :
    (after .tick (withAxis { moving with error := 3 })).axes[0]? =
      some { moving with error := 1, stepsRemaining := 2, position := 1, step := true } ∧
    (after .tick (withAxis { moving with error := 2, stepsRemaining := 1 })).axes[0]? =
      some { moving with error := 0, stepsRemaining := 0, position := 1, step := true, state := .finishedMoving } := by decide

/-- V-TK-8, tick 4, and V-TK-14: the position wraps. -/
theorem test_tick_seek :
    (after .tick (withAxis { axis0 with state := .homingSeek, direction := .minus, dir := false, stepsRemaining := 97, limit := true })).axes[0]? =
      some { axis0 with state := .homingBackoff, direction := .plus, dir := true, stepsRemaining := 100, limit := true } ∧
    (after .tick (withAxis { axis0 with state := .homingSeek, direction := .minus, stepsRemaining := 100, position := 0x80000000 })).axes[0]?.map
      (fun a => (a.position, a.stepsRemaining)) = some (0x7FFFFFFF, 99) := by decide

/-- V-TK-8, tick 7, and V-TK-12. -/
theorem test_tick_ends :
    (after .tick (withAxis { axis0 with state := .homingBackoff, stepsRemaining := 98, position := -1, enable := true })).axes[0]? =
      some { axis0 with state := .finishedHoming, stepsRemaining := 0, position := 0, enable := true } ∧
    (after .tick (withAxis { axis0 with state := .homingSeek, direction := .minus, stepsRemaining := 1 })).axes[0]?.map
      (fun a => (a.state, a.position, a.stepsRemaining)) = some (.error, 0xFFFFFFFF, 0) := by decide

/-- V-TK-15: two pulses in one tick, the lower axis first. -/
theorem test_tick_order :
    (after .tick (edit (withAxis { axis0 with state := .homingSeek, direction := .minus, stepsRemaining := 5 }) 1 fun a =>
      { a with state := .moving, direction := .minus, runLength := 3, riseLength := 3, stepsRemaining := 3 })).obs.steps =
      [{ axis := 0, direction := .minus }, { axis := 1, direction := .minus }] := by decide

/-! ### The step -/

/-- SETUP 1000 as the first instruction after reset. -/
theorem test_step_fetch : stepOnce (State.reset.withFetchWord 48 0x000003E83000) = some (booted 1000) := by decide

/-- V-LI-12: the byte waits, the DONE behind it is taken. -/
theorem test_step_byte_waits :
    stepOnce { busyHandler with inbox := [.port (.rx 0x41), .port .handlerDone] } = some { State.reset with inbox := [.port (.rx 0x41)] } := by
  decide

/-! ### Witnesses: for each obligation with hypotheses, a state and operands that meet them (several where it has several clauses) -/

/-- Axis 0 of a machine whose store holds what SAVE_SETTINGS 42 wrote, its configuration changed since. -/
def savedThenChanged : State := edit (after (.saveSettings 42) .reset) 0 fun a => { a with config := { a.config with maxVelocity := 7 } }

/-- Axis 0 seeking with n pulses left. -/
def seeking (n : Word) (limit : Bool) : Axis :=
  { axis0 with state := .homingSeek, direction := .minus, dir := false, stepsRemaining := n, enable := true, limit := limit }

/-- Axis 0 backing off with n pulses left. -/
def backing (n : Word) (limit : Bool) : Axis := { axis0 with state := .homingBackoff, stepsRemaining := n, enable := true, limit := limit }

/-- A GO at the handler. -/
def goPresented : State := received (ascii "GO 0 1000" ++ [0x0D]) (booted 1000)

theorem witness_ResetHoldsInvariant : Build.standard.Legal := by decide

theorem witness_ResetGivesEveryFieldItsValue : Build.standard.axes[1]? = some axis1.build := by decide

theorem witness_PowerOnResetsTheBlockOnly :
    { inState .moving with inbox := [Input.powerOn] }.inbox = Input.powerOn :: [] ∧
    { inState .moving with inbox := [Input.powerOn] }.axes[0]? = some { axis0 with state := .moving } := by decide

theorem witness_SetupBoots : (1 : Word) ≠ 0 := by decide

theorem witness_DecodeEncodeAgree :
    (Instr.lineSet 0 .stopmode 1).wellFormed 2 = true ∧ (Instr.lineGet 1 .accel).wellFormed 2 = true ∧
    (Instr.reply .ack [0x20, 0x7E]).wellFormed 2 = true ∧ (Instr.moveAbs 255 0).wellFormed 2 = true := by decide

theorem witness_ReservedOpWordsFail : (0x0600#16).extractLsb' 8 8 ∉ [0x01#8, 0x02#8, 0x03#8, 0x04#8, 0x05#8, 0x10#8, 0x11#8, 0x12#8, 0x13#8,
    0x20#8, 0x21#8, 0x22#8, 0x23#8, 0x24#8, 0x25#8, 0x26#8, 0x27#8, 0x30#8, 0x31#8, 0x32#8, 0x33#8] := by decide

theorem witness_StepRunsTheDecodedInstruction :
    (∀ b, PortInput.handlerDone ≠ .rx b) ∧ decodePort .handlerDone = .ok .handlerDone ∧
    (typed "ALIVE").parser.handlerBusy = false ∧ (typed "ALIVE").parser.discarding = false ∧ (typed "ALIVE").parser.buf ≠ [] ∧
    decode (typed "ALIVE").numAxes (.line (typed "ALIVE").parser.buf) = .ok .lineAlive := ⟨nofun, by decide⟩

theorem witness_BytesWaitWhileHandlerIsBusy :
    busyHandler.parser.handlerBusy = true ∧ (∀ b, Input.limit 0 true ≠ .port (.rx b)) ∧
    { busyHandler with inbox := [.port (.rx 0x41), .limit 0 true] }.inbox = (([0x41#8].map fun b => Input.port (.rx b)) ++ [Input.limit 0 true]) ∧
    { busyHandler with inbox := [.port (.rx 0x0A)] }.inbox = ([0x0A#8].map fun b => Input.port (.rx b)) :=
  ⟨by decide, nofun, by decide, by decide⟩

/-- A move that may start, at the largest duration, and one that may not: a zero-length one. -/
theorem witness_MoveAbsStartsOrFails :
    (booted 1).axes[(2#8).toNat]? = none ∧
    (booted 1000).axes[(0#8).toNat]? = some axis0 ∧ (booted 1000).MayMove axis0 (1000#32).toInt ∧ ¬ (booted 1000).MayMove axis0 (0#32).toInt :=
  ⟨by decide, by decide, ⟨by decide, by decide, by decide, by decide, by decide, by decide⟩, fun h => absurd h.distance (by decide)⟩

/-- V-AX-6 at the least int32, and V-AX-7 one below it. -/
theorem witness_MoveRelStartsOrFails :
    (State.MayMove (booted 1) { axis0 with config := { axis0.config with maxVelocity := 0x7FFFFFFF, acceleration := 0x7FFFFFFF } } (-2147483648)) ∧
    -2147483648 ≤ (0 : Word).toInt + (0x80000000#32).toInt ∧ (-1 : Word).toInt + (0x80000000#32).toInt < -2147483648 :=
  ⟨⟨by decide, by decide, by decide, by decide, by decide, by decide⟩, by decide, by decide⟩

theorem witness_HomeStartsOrFails :
    (booted 1000).axes[(0#8).toNat]? = some axis0 ∧ axis0.state = .ready ∧ axis0.config.canHome = true ∧ (booted 1000).registry.configured = true ∧
    (booted 1000).axes[(1#8).toNat]? = some axis1 ∧ axis1.config.canHome = false ∧ (booted 1000).axes[(2#8).toNat]? = none := by decide

theorem witness_SetPosWritesPositionOnly :
    (booted 1000).axes[(0#8).toNat]? = some axis0 ∧ axis0.state = .ready ∧
    (inState .finishedMoving).axes[(0#8).toNat]? = some { axis0 with state := .finishedMoving } ∧ (booted 1000).axes[(255#8).toNat]? = none := by decide

theorem witness_AxisResetLeavesError :
    (inState .error).axes[(0#8).toNat]? = some { axis0 with state := .error } ∧ (booted 1000).axes[(0#8).toNat]? = some axis0 ∧ axis0.state ≠ .error ∧
    (booted 1000).axes[(2#8).toNat]? = none := by decide

theorem witness_QueriesAnswerAndWriteNothing : (booted 1000).axes[(1#8).toNat]? = some axis1 ∧ (booted 1000).axes[(2#8).toNat]? = none := by decide

theorem witness_CheckFinishedTestsAndClears :
    (inState .finishedMoving).axes[(0#8).toNat]? = some { axis0 with state := .finishedMoving } ∧
    (inState .finishedHoming).axes[(0#8).toNat]? = some { axis0 with state := .finishedHoming } ∧
    (inState .moving).axes[(0#8).toNat]? = some { axis0 with state := .moving } ∧ (booted 1000).axes[(2#8).toNat]? = none := by decide

theorem witness_CompletionIsSeenOnce : (inState .finishedHoming).axes[(0#8).toNat]? = some { axis0 with state := .finishedHoming } := by decide

/-- The least and the largest legal velocity, both stop modes, and the illegal neighbours. -/
theorem witness_SettersWriteOneField :
    (booted 1000).axes[(0#8).toNat]? = some axis0 ∧ axis0.state = .ready ∧ 0 < (1#32).toInt ∧ 0 < (0x7FFFFFFF#32).toInt ∧ ¬ 0 < (0#32).toInt ∧
    ¬ 0 < (0x80000000#32).toInt ∧ ¬ ((2 : Word) = 0 ∨ (2 : Word) = 1) ∧ (inState .homingBackoff).axes[(0#8).toNat]? = some { axis0 with state := .homingBackoff } ∧
    (booted 1000).axes[(2#8).toNat]? = none := by decide

theorem witness_SetupConfiguresOnce :
    State.reset.registry.configured = false ∧ (0xFFFFFFFF : Word) ≠ 0 ∧ (booted 1).registry.configured = true := by decide

/-- The last offset that fits (V-RG-6) and the first that does not (V-RG-7). -/
theorem witness_SaveWritesTheRecords :
    State.reset.store.wf = true ∧ (42#32).toNat + 11 * State.reset.numAxes ≤ State.reset.params.storeSize ∧ State.reset.params.storeSize < 4294967296 ∧
    State.reset.params.storeSize < (43#32).toNat + 11 * State.reset.numAxes ∧ State.reset.axes[1]? = some axis1 := by decide

theorem witness_RestoreReadsTheRecords :
    (∀ a ∈ State.reset.axes, a.state ≠ .moving ∧ a.state ≠ .homingSeek ∧ a.state ≠ .homingBackoff) ∧
    (42#32).toNat + 11 * State.reset.numAxes ≤ State.reset.params.storeSize ∧ State.reset.params.storeSize < 4294967296 ∧
    (∃ a ∈ (inState .moving).axes, a.state = .moving ∨ a.state = .homingSeek ∨ a.state = .homingBackoff) ∧
    State.reset.params.storeSize < (43#32).toNat + 11 * State.reset.numAxes := by decide

theorem witness_SaveThenRestoreRoundTrip :
    State.reset.store.wf = true ∧ (42#32).toNat + 11 * State.reset.numAxes ≤ State.reset.params.storeSize ∧ State.reset.params.storeSize < 4294967296 ∧
    exec (.saveSettings 42) .reset = .next (after (.saveSettings 42) .reset) ∧
    savedThenChanged.numAxes = State.reset.numAxes ∧ savedThenChanged.params = State.reset.params ∧
    (∀ o, savedThenChanged.store.read o = (after (.saveSettings 42) .reset).store.read o) ∧
    (∀ a ∈ savedThenChanged.axes, a.state ≠ .moving ∧ a.state ≠ .homingSeek ∧ a.state ≠ .homingBackoff) ∧
    exec (.restoreSettings 42) savedThenChanged = .next (after (.restoreSettings 42) savedThenChanged) :=
  ⟨by decide, by decide, by decide, rfl, by decide, by decide, fun _ => rfl, by decide, rfl⟩

theorem witness_AxisOutOfRangeFails : opAxis (.getAxis 2) = some 2#8 ∧ State.reset.numAxes ≤ (2#8).toNat := by decide

theorem witness_EveryOpAnswersOnceAndFailureChangesNothing : isOp (.restoreSettings 0) = true ∧ isOp (.moveAbs 0 5) = true := by decide

theorem witness_OpsTouchOnlyTheirTargets :
    isOp (.moveAbs 0 1000) = true ∧ exec (.moveAbs 0 1000) (booted 1000) = .next (after (.moveAbs 0 1000) (booted 1000)) ∧
    (after (.moveAbs 0 1000) (booted 1000)).axes[1]? = some axis1 ∧
    isOp (.saveSettings 42) = true ∧ exec (.saveSettings 42) .reset = .next (after (.saveSettings 42) .reset) ∧
    (after (.saveSettings 42) .reset).store.read 42 ≠ State.reset.store.read 42 := ⟨by decide, rfl, by decide, by decide, rfl, by decide⟩

/-- The last valid axis and its neighbours outside. -/
theorem witness_LinesPresentTheirMessage :
    State.reset.parser.handlerBusy = false ∧ 0 ≤ (1#32).toInt ∧ (1#32).toInt < State.reset.numAxes ∧ (State.reset.numAxes : Int) ≤ (2#32).toInt ∧
    (0xFFFFFFFF#32).toInt < 0 := by decide

/-- A printable byte at each end of its range with a full and a nearly full buffer, the bytes next to the range, both terminators. -/
theorem witness_BytesAreAccumulated :
    0x20#8 ≤ 0x20#8 ∧ 0x7E#8 ≤ 0x7E#8 ∧ 0x1F#8 < 0x20#8 ∧ 0x7E#8 < 0x7F#8 ∧
    (typed "SET 0 MAXVEL 200").parser.discarding = false ∧ (typed "SET 0 MAXVEL 200").params.cmdBufLen ≤ (typed "SET 0 MAXVEL 200").parser.buf.length ∧
    (typed "SET 0 MAXVEL 20").parser.buf.length < (typed "SET 0 MAXVEL 20").params.cmdBufLen ∧
    (received (List.replicate 17 0x41) .reset).parser.discarding = true ∧ (received (List.replicate 17 0x41) .reset).parser.handlerBusy = false := by decide

theorem witness_RejectedLineGetsItsReason :
    (typed "GET 2 ACCEL").parser.handlerBusy = false ∧ (typed "GET 2 ACCEL").parser.discarding = false ∧ (typed "GET 2 ACCEL").parser.buf ≠ [] ∧
    decode (typed "GET 2 ACCEL").numAxes (.line (typed "GET 2 ACCEL").parser.buf) = .error (.line .badAxis) := by decide

/-- First failures, from the examples of R236 and R237: "GO 0", "GO x", "HOME 0 1" and, with two axes, "SET 2 MAXVEL 5". -/
theorem test_firstFailures :
    RejectedFor 2 (tokenize (ascii "GO 0")) .tooFewFields ∧ RejectedFor 2 (tokenize (ascii "GO x")) .badInteger ∧
    RejectedFor 2 (tokenize (ascii "HOME 0 1")) .tooManyFields ∧ RejectedFor 2 (tokenize (ascii "SET 2 MAXVEL 5")) .badAxis := by
  refine ⟨.inr ⟨(ascii "GO", 0, [.integer, .integer]), by decide, [ascii "0"], by decide, 1, fun k hk => ?_, .inl ⟨.integer, by decide⟩⟩,
    .inr ⟨(ascii "GO", 0, [.integer, .integer]), by decide, [ascii "x"], by decide, 0, nofun,
      .inr (.inl ⟨.integer, ascii "x", rfl, rfl, by decide, rfl⟩)⟩,
    .inr ⟨(ascii "HOME", 3, [.integer]), by decide, [ascii "0", ascii "1"], by decide, 1, fun k hk => ?_, .inr (.inr ⟨ascii "1", by decide⟩)⟩,
    .inr ⟨(ascii "SET", 1, [.integer, .parameterName, .integer]), by decide, [ascii "2", ascii "MAXVEL", ascii "5"], by decide, 1,
      fun k hk => ?_, .inr (.inl ⟨.parameterName, ascii "MAXVEL", rfl, rfl, .inr ⟨by decide, ⟨2, by decide⟩, rfl⟩⟩)⟩⟩ <;>
    obtain rfl : k = 0 := by omega
  · exact ⟨.integer, ascii "0", 0, rfl, rfl, show parseInteger _ = some _ by decide⟩
  · exact ⟨.integer, ascii "0", 0, rfl, rfl, show parseInteger _ = some _ by decide⟩
  · exact ⟨.integer, ascii "2", 2, rfl, rfl, show parseInteger _ = some _ by decide⟩

/-- R242's example "SET 0 MAXVEL 200". -/
theorem test_acceptedSet : AcceptedAs 2 (tokenize (ascii "SET 0 MAXVEL 200")) 1 #v[0, 0, 200, 0] := by
  refine ⟨(ascii "SET", 1, [.integer, .parameterName, .integer]), by decide, [ascii "0", ascii "MAXVEL", ascii "200"], by decide, rfl, rfl, ?_⟩
  intro j
  match j with
  | 0 => exact ⟨by rintro _ _ ⟨⟩ ⟨⟩; show parseInteger _ = some _; decide, by decide⟩
  | 1 => exact ⟨by rintro _ _ ⟨⟩ ⟨⟩; exact ⟨by decide, 0, by decide⟩, by decide⟩
  | 2 => exact ⟨by rintro _ _ ⟨⟩ ⟨⟩; show parseInteger _ = some _; decide, by decide⟩
  | 3 => exact ⟨by rintro _ _ ⟨⟩, fun _ => rfl⟩

theorem witness_EveryLineGetsOneAnswer :
    (typed " ").parser.handlerBusy = false ∧ (typed " ").parser.discarding = false ∧ (typed " ").parser.buf ≠ [] := by decide

theorem witness_HandlerEventsActOnlyWhileBusy : busyHandler.parser.handlerBusy = true ∧ State.reset.parser.handlerBusy = false := by decide

theorem witness_MessageIsStableWhileHandled :
    step { busyHandler with inbox := [.port (.op 0x1000 0)] } = .next (after (.getPos 0) busyHandler) ∧ (after (.getPos 0) busyHandler).parser.handlerBusy = true :=
  ⟨rfl, rfl⟩

/-- Exactly CMD_BUF_LEN printable bytes and one more. -/
theorem witness_BufferHoldsTheLineSoFar :
    State.reset.parser.handlerBusy = false ∧ State.reset.parser.discarding = false ∧ State.reset.parser.buf = [] ∧
    (∀ b ∈ ascii "SET 0 MAXVEL 2000", b ≠ 0x0D#8 ∧ b ≠ 0x0A#8) ∧
    ((ascii "SET 0 MAXVEL 200").filter fun b => decide (0x20#8 ≤ b ∧ b ≤ 0x7E#8)).length ≤ State.reset.params.cmdBufLen ∧
    State.reset.params.cmdBufLen < ((ascii "SET 0 MAXVEL 2000").filter fun b => decide (0x20#8 ≤ b ∧ b ≤ 0x7E#8)).length := by decide

theorem witness_TypedLineRunsItsInstruction :
    (Instr.lineSet 0 .maxvel 200).wellFormed State.reset.numAxes = true ∧ encode (.lineSet 0 .maxvel 200) = .line (ascii "SET 0 MAXVEL 200") ∧
    (ascii "SET 0 MAXVEL 200").length ≤ State.reset.params.cmdBufLen := by decide

theorem witness_TokenizerFindsTheTokens :
    (ascii "GO" ≠ [] ∧ 0x20#8 ∉ ascii "GO") ∧ (∀ p ∈ [(2, ascii "1"), (0, ascii "-20")], p.2 ≠ [] ∧ 0x20#8 ∉ p.2) := by decide

theorem witness_TickFansOutInOrder :
    State.reset.registry.configured = false ∧ (booted 1).registry.configured = true ∧ (booted 1).axes[1]? = some axis1 ∧ axis1.state = .ready := by decide

/-- A sum just below riseLength, one that meets it with two pulses left and with one, and each of the three broken shapes. -/
theorem witness_MovingTickSpreadsPulses :
    (withAxis moving).registry.configured = true ∧ (withAxis moving).axes[0]? = some moving ∧ moving.state = .moving ∧
    { moving with error := 1 }.error.toNat + moving.runLength.toNat < moving.riseLength.toNat ∧
    moving.riseLength.toNat ≤ { moving with error := 2 }.error.toNat + moving.runLength.toNat ∧
    moving.riseLength ≠ 0 ∧ moving.stepsRemaining ≠ 0 ∧ moving.stepsRemaining ≠ 1 ∧ moving.runLength.toNat ≤ moving.riseLength.toNat ∧
    (withAxis { moving with stepsRemaining := 1, error := 2 }).axes[0]? = some { moving with stepsRemaining := 1, error := 2 } ∧
    (withAxis { moving with riseLength := 2 }).axes[0]? = some { moving with riseLength := 2 } ∧
    { moving with riseLength := 2 }.riseLength.toNat < moving.runLength.toNat := by decide

theorem witness_SeekTickSamplesThenPulses :
    (withAxis (seeking 1 false)).axes[0]? = some (seeking 1 false) ∧ (seeking 1 false).state = .homingSeek ∧ limitReads (seeking 1 false) false ∧
    limitReads (seeking 2 true) true ∧ limitReads (seeking 2 false) false ∧ (withAxis (seeking 0 false)).axes[0]? = some (seeking 0 false) ∧
    (withAxis (seeking 2 true)).registry.configured = true := by simp only [limitReads]; decide

theorem witness_BackoffTickStopsAtRelease :
    (withAxis (backing 1 true)).axes[0]? = some (backing 1 true) ∧ (backing 1 true).state = .homingBackoff ∧ limitReads (backing 1 true) true ∧
    limitReads (backing 2 false) false ∧ limitReads (backing 2 true) true ∧ (withAxis (backing 0 false)).axes[0]? = some (backing 0 false) ∧
    (withAxis (backing 2 true)).registry.configured = true := by simp only [limitReads]; decide

theorem witness_TickTouchesOnlyMotion :
    exec .tick (withAxis moving) = .next (after .tick (withAxis moving)) ∧ (withAxis moving).axes[0]? = some moving := ⟨rfl, by decide⟩

/-- The moving machine of V-TK-1 meets the invariant, and a step of it is a tick. -/
theorem witness_StepKeepsInvariant :
    State.Inv { withAxis moving with inbox := [.port .tick] } ∧
    step { withAxis moving with inbox := [.port .tick] } = .next (after .tick (withAxis moving)) := by
  refine ⟨⟨by decide, by decide, ?_, by decide, by decide, by decide, by decide, by decide, by decide, by decide⟩, rfl⟩
  intro a ha
  have : a = moving ∨ a = axis1 := by
    have h : a ∈ [moving, axis1] := ha
    simpa using h
  rcases this with rfl | rfl
  · exact ⟨by decide, by decide, fun _ => ⟨0, by decide, by decide, by decide⟩, by decide, by decide, by decide, by decide, by decide, by decide⟩
  · exact ⟨by decide, by decide, fun h => absurd h (by decide), by decide, by decide, by decide, by decide, by decide, by decide⟩

/-- V-TK-1 at its first, second and last tick. -/
theorem witness_MoveEmitsItsPulsesEvenly :
    (withAxis moving).registry.configured = true ∧ (withAxis moving).axes[0]? = some moving ∧ moving.state = .moving ∧ moving.runLength.toNat = 3 ∧
    moving.riseLength.toNat = 5 ∧ moving.error = 0 ∧ moving.stepsRemaining.toNat = 3 ∧
    FitsInt32 (moving.position.toInt + directionInt moving.direction * ((3 : Nat) : Int)) ∧ 0 ≤ 5 ∧ 2 ≤ 5 ∧ 5 ≤ 5 := by decide

/-- V-TK-1: pulses 1 and 2 on ticks 2 and 4, pulses 2 and 3 on ticks 4 and 5. -/
theorem witness_PulsesAreSpacedEvenly :
    (withAxis moving).axes[0]? = some moving ∧ moving.runLength.toNat = 3 ∧ 2 = (1 * 5 + 3 - 1) / 3 ∧ 4 = ((1 + 1) * 5 + 3 - 1) / 3 ∧
    4 = (2 * 5 + 3 - 1) / 3 ∧ 5 = ((2 + 1) * 5 + 3 - 1) / 3 := by decide

theorem witness_HomingEndsWithinTwoBudgets :
    (withAxis (seeking 100 false)).registry.configured = true ∧ (withAxis (seeking 100 false)).axes[0]? = some (seeking 100 false) ∧
    (seeking 100 false).state = .homingSeek ∧ (seeking 100 false).stepsRemaining = (withAxis (seeking 100 false)).params.homeTickBudget ∧
    (withAxis (seeking 100 false)).params.homeTickBudget ≠ 0 ∧
    2 * (withAxis (seeking 100 false)).params.homeTickBudget.toNat ≤ (List.replicate 99 false ++ List.replicate 101 true).length :=
  ⟨by decide, by decide, by decide, by decide, by decide, by rw [List.length_append, List.length_replicate, List.length_replicate]; decide⟩

theorem witness_TransitionsFollowTheTable :
    exec (.checkFinished 0) (inState .finishedMoving) = .next (after (.checkFinished 0) (inState .finishedMoving)) ∧
    (inState .finishedMoving).axes[0]? = some { axis0 with state := .finishedMoving } ∧
    (after (.checkFinished 0) (inState .finishedMoving)).axes[0]? = some axis0 := ⟨rfl, by decide, by decide⟩

theorem witness_OnlyTicksChangeABusyAxis :
    exec (.restoreSettings 0) (inState .homingSeek) = .next (after (.restoreSettings 0) (inState .homingSeek)) ∧ Instr.restoreSettings 0 ≠ .tick ∧
    (inState .homingSeek).axes[0]? = some { axis0 with state := .homingSeek } := ⟨rfl, by decide, by decide⟩

theorem witness_OnlyRestoreWritesHomeSettings :
    exec (.setMaxvel 0 5) (booted 1) = .next (after (.setMaxvel 0 5) (booted 1)) ∧ (∀ o, Instr.setMaxvel 0 5 ≠ .restoreSettings o) ∧
    (booted 1).axes[1]? = some axis1 ∧ (after (.setMaxvel 0 5) (booted 1)).axes[1]? = some axis1 := ⟨rfl, nofun, by decide, by decide⟩

theorem witness_BusyRequestsFail : (inState .moving).axes[(0#8).toNat]? = some { axis0 with state := .moving } := by decide

theorem witness_DurationIsAtLeastStraightLine :
    (booted 1000).axes[(0#8).toNat]? = some axis0 ∧ exec (.moveAbs 0 100) (booted 1000) = .next (after (.moveAbs 0 100) (booted 1000)) ∧
    (booted 1000).Answered (after (.moveAbs 0 100) (booted 1000)) true 633 := ⟨by decide, rfl, ⟨by decide, by decide⟩⟩

/-- The boundary of V-PF-8, a trapezoid and a triangle. -/
theorem witness_ProfileTicksIsTheLeastDuration : 500 * 500 ≤ 1000 * 250 ∧ 1000 * 250 ≤ 500 * 500 ∧ 500 * 500 ≤ 1000 * 1000 ∧ 1000 * 100 ≤ 500 * 500 := by
  decide

theorem witness_NothingStopsTheBlock :
    ∀ i ∈ { State.reset with inbox := [.port (.reply .ack [0x41]), .port .tick, .powerOn] }.inbox, i.legal = true := by decide

theorem witness_AxesAreIndependent :
    (opAxis (.moveAbs 0 5) = some 0#8 ∧ (0#8).toNat = 0) ∧
    (edit (booted 1) 1 fun a => { a with position := 9 }).registry = (booted 1).registry ∧
    (edit (booted 1) 1 fun a => { a with position := 9 }).params = (booted 1).params ∧
    (edit (booted 1) 1 fun a => { a with position := 9 }).axes[0]? = (booted 1).axes[0]? := by decide

theorem witness_BuildIsNeverWritten : step { booted 1 with inbox := [.powerOn] } = .next State.reset := rfl

theorem witness_ObservationOnlyGrows :
    Input.powerOn ∉ { booted 1 with inbox := [.port .tick] }.inbox ∧ step { booted 1 with inbox := [.port .tick] } = .next (booted 1) := ⟨by decide, rfl⟩

/-- An axis in Error, with nothing pending, and with an OP, a LIMIT level and a power-on pending. -/
theorem witness_QuiescentStateKeepsStill :
    (inState .error).Quiescent ∧ (inState .error).inbox = [] ∧
    State.Quiescent { inState .error with inbox := [.port (.op 0x1000 0), .limit 0 true, .powerOn] } :=
  ⟨⟨⟨by decide, by decide, by decide, by decide⟩, by decide⟩, by decide, ⟨⟨by decide, by decide, by decide, by decide⟩, by decide⟩⟩

theorem witness_ReferenceHandlerRepliesOnce :
    goPresented.parser.handlerBusy = true ∧ goPresented.handler = .idle ∧ goPresented.parser.msg.type.toNat ≤ 5 := by decide

theorem witness_ReferenceHandlerRunsGo :
    goPresented.parser.handlerBusy = true ∧ goPresented.handler = .idle ∧ goPresented.parser.msg.type = 0 ∧
    goPresented.parser.msg.fields = #v[BitVec.ofNat 32 0, 1000, 0, 0] ∧ goPresented.axes[0]? = some axis0 ∧ axis0.state = .ready ∧
    goPresented.MayMove { axis0 with state := .ready } (1000#32).toInt :=
  ⟨by decide, by decide, by decide, by decide, by decide, by decide, ⟨by decide, by decide, by decide, by decide, by decide, by decide⟩⟩

/-- A SET and a GET at the handler, for a Ready axis and for a Moving one; 1 is the least speed and the greatest stop mode the setters take. -/
theorem witness_ReferenceHandlerSetsAndGets :
    (received (ascii "SET 1 STOPMODE 1" ++ [0x0D]) (booted 1)).parser.msg.fields = #v[BitVec.ofNat 32 1, paramCode .stopmode, 1, 0] ∧
    (received (ascii "SET 0 MAXVEL 0" ++ [0x0D]) (booted 1)).parser.msg.fields = #v[BitVec.ofNat 32 0, paramCode .maxvel, 0, 0] ∧
    (received (ascii "SET 0 ACCEL 1" ++ [0x0D]) (booted 1)).parser.msg.type = 1 ∧
    (received (ascii "GET 0 ACCEL" ++ [0x0D]) (inState .moving)).parser.msg.fields = #v[BitVec.ofNat 32 0, paramCode .accel, 0, 0] ∧
    (received (ascii "GET 0 ACCEL" ++ [0x0D]) (inState .moving)).parser.msg.type = 2 ∧
    (received (ascii "GET 0 ACCEL" ++ [0x0D]) (inState .moving)).parser.handlerBusy = true ∧
    (received (ascii "GET 0 ACCEL" ++ [0x0D]) (inState .moving)).handler = .idle ∧
    (received (ascii "GET 0 ACCEL" ++ [0x0D]) (inState .moving)).axes[0]? = some { axis0 with state := .moving } := by decide

/-- A STATE at the handler, for an axis with the latch set and for one in Error. -/
theorem witness_ReferenceHandlerReportsState :
    (received (ascii "STATE 0" ++ [0x0D]) (inState .finishedHoming)).parser.msg.type = 4 ∧
    (received (ascii "STATE 0" ++ [0x0D]) (inState .finishedHoming)).parser.msg.fields = #v[BitVec.ofNat 32 0, 0, 0, 0] ∧
    (received (ascii "STATE 0" ++ [0x0D]) (inState .finishedHoming)).handler = .idle ∧
    (received (ascii "STATE 0" ++ [0x0D]) (inState .finishedHoming)).parser.handlerBusy = true ∧
    (received (ascii "STATE 0" ++ [0x0D]) (inState .finishedHoming)).axes[0]? = some { axis0 with state := .finishedHoming } ∧
    (received (ascii "STATE 0" ++ [0x0D]) (inState .error)).axes[0]? = some { axis0 with state := .error } := by decide

/-- A HOME at the handler, for an axis that may home and for one that may not. -/
theorem witness_ReferenceHandlerRunsHome :
    (received (ascii "HOME 0" ++ [0x0D]) (inState .finishedMoving)).parser.msg.type = 3 ∧
    (received (ascii "HOME 0" ++ [0x0D]) (inState .finishedMoving)).parser.msg.fields = #v[BitVec.ofNat 32 0, 0, 0, 0] ∧
    (received (ascii "HOME 0" ++ [0x0D]) (inState .finishedMoving)).handler = .idle ∧
    (received (ascii "HOME 0" ++ [0x0D]) (inState .finishedMoving)).parser.handlerBusy = true ∧
    (received (ascii "HOME 0" ++ [0x0D]) (inState .finishedMoving)).registry.configured = true ∧
    (received (ascii "HOME 0" ++ [0x0D]) (inState .finishedMoving)).axes[0]? = some { axis0 with state := .finishedMoving } ∧
    axis0.config.canHome = true ∧
    (received (ascii "HOME 1" ++ [0x0D]) (booted 1)).parser.msg.fields = #v[BitVec.ofNat 32 1, 0, 0, 0] ∧
    (received (ascii "HOME 1" ++ [0x0D]) (booted 1)).axes[1]? = some axis1 ∧ axis1.config.canHome = false := by decide

end Sys2Proof.Tests
end

/-! The step and the build (00_scope.md R3, R9): which instruction a step runs, and that no step writes what the build fixes. -/

namespace Sys2Proof.Machine

/-! ### The instruction a step runs -/

/-- A step delivers the head of the inbox when that input is enabled (R9). -/
theorem step_of_head {s : State} {i : Input} {rest : List Input} (h : s.inbox = i :: rest)
    (hi : (s.parser.handlerBusy && i.isRx) = false) : step s = deliver i { s with inbox := rest } := by
  simp [step, stepInput, h, takeInput_head hi]

theorem deliver_port_of_decode {p : PortInput} {i : Instr} (h : decodePort p = .ok i) (s : State) :
    deliver (.port p) s = exec i s := by
  simp [deliver, deliverPort, h]

/-- RX bytes are the only inputs a busy handler holds back (R210, R302). -/
theorem held_port_eq_false {busy : Bool} {p : PortInput} (h : busy = true → ∀ b, p ≠ .rx b) :
    (busy && (Input.port p).isRx) = false := by
  cases busy with
  | false => rfl
  | true =>
    cases p with
    | rx b => exact absurd rfl (h rfl b)
    | op _ _ | tick | reply _ _ | handlerDone => rfl

theorem isTerminator_of_cr_or_lf {b : Byte} (h : b = 0x0D#8 ∨ b = 0x0A#8) : isTerminator b = true := by
  rcases h with rfl | rfl <;> rfl

/-- The terminator of a non-empty line that decodes runs the line's instruction, with the buffer emptied (R212, R232). -/
theorem execRx_terminator {s : State} {b : Byte} {i : Instr} (hb : isTerminator b = true)
    (hbusy : s.parser.handlerBusy = false) (hdisc : s.parser.discarding = false) (hbuf : s.parser.buf ≠ [])
    (hi : decodeLine s.numAxes s.parser.buf = .ok i) : execRx b s = exec i s.emptyBuffer := by
  have hline : processCommand s.parser.buf s.emptyBuffer = exec i s.emptyBuffer := processCommand_ok hi
  simp [execRx, terminator, hb, hbusy, hdisc, hbuf, hline]

/-! ### The build is kept -/

/-- The block's parameters and the build of each axis are as before (R3, R21). -/
structure State.SameBuild (s t : State) : Prop where
  params : t.params = s.params
  builds : (t.axes.map fun a => a.build) = s.axes.map fun a => a.build

theorem State.SameBuild.of_axes {s t : State} (hp : t.params = s.params) (ha : t.axes = s.axes) : s.SameBuild t :=
  ⟨hp, by rw [ha]⟩

theorem State.SameBuild.refl (s : State) : s.SameBuild s := .of_axes rfl rfl

theorem map_build_set {axes : List Axis} {i : Nat} {a b : Axis} (h : axes[i]? = some a) (hb : b.build = a.build) :
    ((axes.set i b).map fun a => a.build) = axes.map fun a => a.build := by
  obtain ⟨hlt, rfl⟩ := List.getElem?_eq_some_iff.mp h
  rw [List.map_set, hb, ← List.getElem_map (fun a : Axis => a.build) (h := by simpa using hlt), List.set_getElem_self]

theorem map_build_restoreAxes (m : Memory) (off : Nat) (axes : List Axis) :
    ((restoreAxes m off axes).map fun a => a.build) = axes.map fun a => a.build := by
  induction axes generalizing off with
  | nil => rfl
  | cons a rest ih => simp [restoreAxes, ih]

theorem map_build_tickAxes (budget : Word) (axes : List Axis) :
    ((tickAxes budget axes).map fun a => a.build) = axes.map fun a => a.build := by
  simp [tickAxes]

theorem map_build_modify_limit (axes : List Axis) (i : Nat) (level : Bool) :
    ((axes.modify i fun a => { a with limit := level }).map fun a => a.build) = axes.map fun a => a.build := by
  induction axes generalizing i with
  | nil => simp
  | cons a rest ih => cases i <;> simp [ih]

/-! #### The OP requests -/

/-- An axis operation whose effect on the addressed axis keeps its build keeps every build. -/
theorem axisOp_sameBuild {axis : BitVec 8} {f : Axis → Option (Axis × Word)} {s t : State}
    (h : axisOp axis f s = .next t) (hf : ∀ a b v, f a = some (b, v) → b.build = a.build) : s.SameBuild t := by
  rcases axisOp_cases h with rfl | ⟨a, b, v, ha, hb, rfl⟩
  · exact .of_axes rfl rfl
  · exact ⟨rfl, map_build_set ha (hf a b v hb)⟩

theorem readOp_sameBuild {axis : BitVec 8} {read : Axis → Word} {s t : State} (h : readOp axis read s = .next t) :
    s.SameBuild t := by
  refine axisOp_sameBuild h fun a b v hf => ?_
  obtain ⟨rfl, -⟩ : a = b ∧ read a = v := by simpa using hf
  rfl

theorem configOp_sameBuild {axis : BitVec 8} {write : AxisConfig → Option AxisConfig} {s t : State}
    (h : configOp axis write s = .next t) : s.SameBuild t := by
  rcases configOp_cases h with rfl | ⟨a, c, ha, -, -, rfl⟩
  · exact .of_axes rfl rfl
  · exact ⟨rfl, map_build_set ha rfl⟩

theorem execCheckFinished_sameBuild {axis : BitVec 8} {s t : State} (h : execCheckFinished axis s = .next t) :
    s.SameBuild t := by
  rcases execCheckFinished_cases h with rfl | ⟨a, ha, ⟨-, rfl⟩ | ⟨-, rfl⟩⟩
  · exact .of_axes rfl rfl
  · exact .of_axes rfl rfl
  · exact ⟨rfl, map_build_set ha rfl⟩

theorem Axis.startMove_build {r : Registry} {target : Int} {a b : Axis} {v : Word}
    (h : a.startMove r target = some (b, v)) : b.build = a.build := by
  obtain ⟨-, -, -, -, -, -, rfl, -⟩ := Axis.startMove_eq_some.mp h
  rfl

theorem Axis.startRelative_build {r : Registry} {delta : Int} {a b : Axis} {v : Word}
    (h : a.startRelative r delta = some (b, v)) : b.build = a.build :=
  Axis.startMove_build (Axis.startRelative_eq_some.mp h).2

theorem Axis.startHoming_build {p : Params} {r : Registry} {a b : Axis} {v : Word}
    (h : a.startHoming p r = some (b, v)) : b.build = a.build := by
  obtain ⟨-, -, -, rfl, -⟩ := Axis.startHoming_eq_some.mp h
  rfl

theorem Axis.setPosition_build {p : Word} {a b : Axis} {v : Word} (h : a.setPosition p = some (b, v)) :
    b.build = a.build := by
  obtain ⟨-, rfl, -⟩ := Axis.setPosition_eq_some.mp h
  rfl

theorem Axis.resetFromError_build {a b : Axis} {v : Word} (h : a.resetFromError = some (b, v)) : b.build = a.build := by
  obtain ⟨-, rfl, -⟩ := Axis.resetFromError_eq_some.mp h
  rfl

theorem execSetup_sameBuild {f : Word} {s t : State} (h : execSetup f s = .next t) : s.SameBuild t := by
  rcases execSetup_cases h with rfl | ⟨-, -, rfl⟩ <;> exact .of_axes rfl rfl

theorem execSaveSettings_sameBuild {off : Word} {s t : State} (h : execSaveSettings off s = .next t) : s.SameBuild t := by
  rcases execSaveSettings_cases h with rfl | ⟨-, rfl⟩ <;> exact .of_axes rfl rfl

theorem execRestoreSettings_sameBuild {off : Word} {s t : State} (h : execRestoreSettings off s = .next t) :
    s.SameBuild t := by
  rcases execRestoreSettings_cases h with rfl | ⟨-, -, rfl⟩
  · exact .of_axes rfl rfl
  · exact ⟨rfl, map_build_restoreAxes _ _ _⟩

/-! #### Lines and events -/

theorem whenHandlerIdle_sameBuild {s u t : State} (h : whenHandlerIdle s u = .next t) (hu : s.SameBuild u) :
    s.SameBuild t := by
  cases hb : s.parser.handlerBusy with
  | true =>
    obtain rfl : s = t := by simpa [whenHandlerIdle_busy hb] using h
    exact .refl s
  | false =>
    obtain rfl : u = t := by simpa [whenHandlerIdle_idle hb] using h
    exact hu

/-- SET and GET lines present a Message or answer BAD AXIS (R236). -/
theorem acceptOrBadAxis_sameBuild (s : State) (valid : Bool) (t : LineType) (f : Vector Word 4) :
    s.SameBuild (if valid then s.accept t f else s.protocolError .badAxis) := by
  cases valid <;> exact .of_axes rfl rfl

theorem execTick_sameBuild {s t : State} (h : execTick s = .next t) : s.SameBuild t := by
  rcases execTick_cases h with ⟨-, rfl⟩ | ⟨-, rfl⟩
  · exact .refl _
  · exact ⟨rfl, map_build_tickAxes _ _⟩

theorem execRx_sameBuild {b : Byte} {s t : State} (h : execRx b s = .next t) : s.SameBuild t := by
  rcases execRx_cases h with rfl | ⟨-, -, -, rfl⟩ | ⟨hb, -, -, -, hp⟩ | ⟨-, -, -, -, rfl⟩ | ⟨-, -, -, -, rfl⟩
  case inr.inr.inl =>
    rcases processCommand_cases hp hb with ⟨ty, f, rfl⟩ | ⟨e, rfl⟩ <;> exact .of_axes rfl rfl
  all_goals exact .of_axes rfl rfl

theorem execReply_sameBuild {m : Marker} {text : List Byte} {s t : State} (h : execReply m text s = .next t) :
    s.SameBuild t := by
  unfold execReply at h
  split at h <;> cases h <;> exact .of_axes rfl rfl

theorem execHandlerDone_sameBuild {s t : State} (h : execHandlerDone s = .next t) : s.SameBuild t := by
  unfold execHandlerDone at h
  split at h <;> cases h <;> exact .of_axes rfl rfl

/-! #### Every instruction, every input -/

/-- No instruction writes the build (R3, R21). -/
theorem exec_sameBuild {i : Instr} {s t : State} (h : exec i s = .next t) : s.SameBuild t := by
  cases i with
  | moveAbs => exact axisOp_sameBuild h fun _ _ _ => Axis.startMove_build
  | moveRel => exact axisOp_sameBuild h fun _ _ _ => Axis.startRelative_build
  | home => exact axisOp_sameBuild h fun _ _ _ => Axis.startHoming_build
  | setPos => exact axisOp_sameBuild h fun _ _ _ => Axis.setPosition_build
  | axisReset => exact axisOp_sameBuild h fun _ _ _ => Axis.resetFromError_build
  | checkFinished => exact execCheckFinished_sameBuild h
  | getPos | busy | getState | getMaxvel | getAccel | getStopmode | getHomedir | getCanhome => exact readOp_sameBuild h
  | getAxis => exact readOp_sameBuild (read := fun _ => 0) h
  | setMaxvel axis v => exact configOp_sameBuild (show execSetMaxvel axis v s = .next t from h)
  | setAccel axis v => exact configOp_sameBuild (show execSetAccel axis v s = .next t from h)
  | setStopmode axis v => exact configOp_sameBuild (show execSetStopmode axis v s = .next t from h)
  | setup => exact execSetup_sameBuild h
  | saveSettings => exact execSaveSettings_sameBuild h
  | restoreSettings => exact execRestoreSettings_sameBuild h
  | lineGo | lineHome | lineState | lineAlive => exact whenHandlerIdle_sameBuild h (.of_axes rfl rfl)
  | lineSet | lineGet => exact whenHandlerIdle_sameBuild h (acceptOrBadAxis_sameBuild _ _ _ _)
  | tick => exact execTick_sameBuild h
  | rx => exact execRx_sameBuild h
  | reply => exact execReply_sameBuild h
  | handlerDone => exact execHandlerDone_sameBuild h

theorem handlerStep_sameBuild {s t : State} (h : handlerStep s = .next t) : s.SameBuild t := by
  rcases handlerStep_cases h with ⟨-, rfl⟩ | ⟨-, -, rfl⟩ | ⟨-, ty, u, -, hu, rfl⟩
  · exact .of_axes rfl rfl
  · exact .refl _
  · obtain ⟨hparams, hbuilds⟩ := exec_sameBuild hu
    exact ⟨hparams, hbuilds⟩

theorem State.driveLimit_sameBuild (s : State) (i : Nat) (level : Bool) : s.SameBuild (s.driveLimit i level) :=
  ⟨s.driveLimit_params i level, by rw [State.driveLimit_axes, map_build_modify_limit]⟩

theorem State.powerOn_sameBuild (s : State) : s.SameBuild s.powerOn :=
  ⟨rfl, by simp⟩

theorem deliver_sameBuild {i : Input} {s t : State} (h : deliver i s = .next t) : s.SameBuild t := by
  rcases deliver_cases h with ⟨p, c, -, -, hc⟩ | ⟨w, v, -, rfl⟩ | ⟨k, level, -, rfl⟩ | ⟨-, rfl⟩ | ⟨-, hh⟩
  · exact exec_sameBuild hc
  · exact .of_axes rfl rfl
  · exact s.driveLimit_sameBuild k level
  · exact s.powerOn_sameBuild
  · exact handlerStep_sameBuild hh

theorem step_sameBuild {s t : State} (h : step s = .next t) : s.SameBuild t := by
  rcases step_cases h with ⟨-, rfl⟩ | ⟨i, rest, -, hd⟩
  · exact .refl _
  · obtain ⟨hparams, hbuilds⟩ := deliver_sameBuild hd
    exact ⟨hparams, hbuilds⟩

/-! ### The obligations -/

/-- Settles O53: whatever input the step takes, delivering it keeps the parameters and each axis's build. -/
theorem buildIsNeverWritten : Obligations.BuildIsNeverWritten := by
  intro s t h
  obtain ⟨hparams, hbuilds⟩ := step_sameBuild h
  exact ⟨hparams, hbuilds⟩

/-- Settles O8: an enabled port transfer at the head is delivered as its instruction, and the terminator of a line as the line's. -/
theorem stepRunsTheDecodedInstruction : Obligations.StepRunsTheDecodedInstruction := by
  refine ⟨fun s p rest i hin hheld hdec => ?_, fun s b rest i hin hb hbusy hdisc hbuf hdec => ?_⟩
  · rw [step_of_head hin (held_port_eq_false hheld), deliver_port_of_decode hdec]
  · have henabled : (s.parser.handlerBusy && (Input.port (.rx b)).isRx) = false := by simp [hbusy]
    calc step s = execRx b { s with inbox := rest } := step_of_head hin henabled
      _ = exec i (State.emptyBuffer { s with inbox := rest }) :=
        execRx_terminator (isTerminator_of_cr_or_lf hb) hbusy hdisc hbuf hdec

end Sys2Proof.Machine

/-! The state (10_state.md): what an instruction can do to it, the invariant of R27, and the frames. -/

namespace Sys2Proof.Machine

/-! ### What an OP can do -/

/-- What an OP can leave of an axis: the axis itself, or one write, each of them from a state that is not busy (R100-R113, R132,
R141-R145, R194). -/
inductive Axis.OpChange (p : Params) (r : Registry) : Instr → Axis → Axis → Prop where
  | keep (i : Instr) (a : Axis) : Axis.OpChange p r i a a
  | move {i : Instr} {a : Axis} {x : BitVec 8} {v : Word} {target : Int} {rise : Nat}
      (hi : i = .moveAbs x v ∨ i = .moveRel x v) (hready : a.state = .ready) (hconf : r.configured = true)
      (hfits : FitsInt32 target) (hne : target ≠ a.position.toInt)
      (hlow : (target - a.position.toInt).natAbs ≤ rise) (hhigh : rise ≤ 4294967295) :
      Axis.OpChange p r i a (a.commit (target - a.position.toInt) (target - a.position.toInt).natAbs rise)
  | home {a : Axis} (x : BitVec 8) (hready : a.state = .ready) (hconf : r.configured = true) :
      Axis.OpChange p r (.home x) a
        { a.setDir a.config.homeDirection with stepsRemaining := p.homeTickBudget, enable := true, state := .homingSeek }
  | setPos {a : Axis} (x : BitVec 8) (v : Word) (hready : a.state = .ready) :
      Axis.OpChange p r (.setPos x v) a { a with position := v }
  | axisReset {a : Axis} (x : BitVec 8) (herror : a.state = .error) : Axis.OpChange p r (.axisReset x) a a.leaveError
  | checkFinished {a : Axis} (x : BitVec 8) (hfin : a.state.finished = true) :
      Axis.OpChange p r (.checkFinished x) a { a with state := .ready }
  | setMaxvel {a : Axis} (x : BitVec 8) (v : Word) (hidle : a.state.busy = false) :
      Axis.OpChange p r (.setMaxvel x v) a { a with config := { a.config with maxVelocity := v } }
  | setAccel {a : Axis} (x : BitVec 8) (v : Word) (hidle : a.state.busy = false) :
      Axis.OpChange p r (.setAccel x v) a { a with config := { a.config with acceleration := v } }
  | setStopmode {a : Axis} (x : BitVec 8) (v : Word) (m : StopMode) (hidle : a.state.busy = false) :
      Axis.OpChange p r (.setStopmode x v) a { a with config := { a.config with stopMode := m } }
  | restore {a : Axis} (off : Word) (c : AxisConfig) (hidle : a.state.busy = false) :
      Axis.OpChange p r (.restoreSettings off) a { a with config := c }

/-- Every outcome of an OP (R71): a failure, an operation on the addressed axis, or one of the three registry operations. -/
inductive OpOutcome (i : Instr) (s : State) : State → Prop where
  | failed : OpOutcome i s (s.respond false 0)
  | axis {x : BitVec 8} {a b : Axis} (v : Word) (hx : opAxis i = some x) (ha : s.axes[x.toNat]? = some a)
      (hab : Axis.OpChange s.params s.registry i a b) : OpOutcome i s ((s.setAxis x.toNat b).respond true v)
  | setup {f : Word} (hi : i = .setup f) (hf : f ≠ 0) :
      OpOutcome i s (State.respond { s with registry := { configured := true, frequency := f } } true 0)
  | save {off : Word} (v : Word) (hi : i = .saveSettings off) (hfits : off.toNat + s.settingsBytes ≤ s.params.storeSize) :
      OpOutcome i s (State.respond { s with store := s.store.writeBytes off.toNat (encodeSettings s.axes) } true v)
  | restore {off : Word} (v : Word) (hi : i = .restoreSettings off) (hidle : anyBusy s.axes = false) :
      OpOutcome i s (State.respond { s with axes := restoreAxes s.store off.toNat s.axes } true v)

theorem fitsInt32_toInt (w : Word) : FitsInt32 w.toInt := by
  have hlow := BitVec.le_toInt w
  have hhigh := BitVec.toInt_lt (x := w)
  constructor <;> omega

section Outcome

variable {i : Instr} {x : BitVec 8} {s t : State}

theorem Axis.startMove_opChange {p : Params} {r : Registry} {v w : Word} {target : Int} {a b : Axis}
    (hi : i = .moveAbs x v ∨ i = .moveRel x v) (hfits : FitsInt32 target) (h : a.startMove r target = some (b, w)) :
    Axis.OpChange p r i a b := by
  obtain ⟨hready, hconf, hne, -, -, hhigh, rfl, -⟩ := Axis.startMove_eq_some.mp h
  exact .move hi hready hconf hfits hne (le_max_right _ _) hhigh

theorem axisOp_outcome {f : Axis → Option (Axis × Word)} (hx : opAxis i = some x) (h : axisOp x f s = .next t)
    (hf : ∀ a b v, f a = some (b, v) → Axis.OpChange s.params s.registry i a b) : OpOutcome i s t := by
  rcases axisOp_cases h with rfl | ⟨a, b, v, ha, hb, rfl⟩
  · exact .failed
  · exact .axis v hx ha (hf a b v hb)

theorem readOp_outcome {read : Axis → Word} (hx : opAxis i = some x) (h : readOp x read s = .next t) :
    OpOutcome i s t := by
  refine axisOp_outcome hx h fun a b v hf => ?_
  obtain ⟨rfl, -⟩ : a = b ∧ read a = v := by simpa using hf
  exact .keep i a

theorem configOp_outcome {write : AxisConfig → Option AxisConfig} (hx : opAxis i = some x)
    (h : configOp x write s = .next t)
    (hw : ∀ a c, a.state.busy = false → write a.config = some c →
      Axis.OpChange s.params s.registry i a { a with config := c }) : OpOutcome i s t := by
  rcases configOp_cases h with rfl | ⟨a, c, ha, hidle, hc, rfl⟩
  · exact .failed
  · exact .axis 0 hx ha (hw a c hidle hc)

theorem execCheckFinished_outcome (h : execCheckFinished x s = .next t) : OpOutcome (.checkFinished x) s t := by
  refine axisOp_outcome rfl h fun a b v hf => ?_
  split at hf <;> obtain ⟨rfl, -⟩ := Prod.mk.inj (Option.some.inj hf)
  · next hfin => exact .checkFinished x hfin
  · exact .keep _ a

theorem execSetMaxvel_outcome {v : Word} (h : execSetMaxvel x v s = .next t) : OpOutcome (.setMaxvel x v) s t := by
  refine configOp_outcome rfl h fun a c hidle hc => ?_
  split at hc <;> cases hc
  exact .setMaxvel x v hidle

theorem execSetAccel_outcome {v : Word} (h : execSetAccel x v s = .next t) : OpOutcome (.setAccel x v) s t := by
  refine configOp_outcome rfl h fun a c hidle hc => ?_
  split at hc <;> cases hc
  exact .setAccel x v hidle

theorem execSetStopmode_outcome {v : Word} (h : execSetStopmode x v s = .next t) :
    OpOutcome (.setStopmode x v) s t := by
  refine configOp_outcome rfl h fun a c hidle hc => ?_
  split at hc <;> cases hc
  exact .setStopmode x v _ hidle

theorem execSetup_outcome {f : Word} (h : execSetup f s = .next t) : OpOutcome (.setup f) s t := by
  rcases execSetup_cases h with rfl | ⟨-, hf, rfl⟩
  · exact .failed
  · exact .setup rfl hf

theorem execSaveSettings_outcome {off : Word} (h : execSaveSettings off s = .next t) :
    OpOutcome (.saveSettings off) s t := by
  rcases execSaveSettings_cases h with rfl | ⟨hfits, rfl⟩
  · exact .failed
  · exact .save _ rfl hfits

theorem execRestoreSettings_outcome {off : Word} (h : execRestoreSettings off s = .next t) :
    OpOutcome (.restoreSettings off) s t := by
  rcases execRestoreSettings_cases h with rfl | ⟨hidle, -, rfl⟩
  · exact .failed
  · exact .restore _ rfl hidle

/-- Each of the 21 OPs has one of the outcomes of `OpOutcome`. -/
theorem exec_op_outcome (hi : isOp i = true) (h : exec i s = .next t) : OpOutcome i s t := by
  cases i with
  | moveAbs x v =>
    exact axisOp_outcome rfl h fun _ _ _ => Axis.startMove_opChange (.inl rfl) (fitsInt32_toInt v)
  | moveRel x v =>
    refine axisOp_outcome rfl h fun a b w hf => ?_
    obtain ⟨hfits, hmove⟩ := Axis.startRelative_eq_some.mp hf
    exact Axis.startMove_opChange (.inr rfl) hfits hmove
  | home x =>
    refine axisOp_outcome rfl h fun a b w hf => ?_
    obtain ⟨hready, -, hconf, rfl, -⟩ := Axis.startHoming_eq_some.mp hf
    exact .home x hready hconf
  | setPos x v =>
    refine axisOp_outcome rfl h fun a b w hf => ?_
    obtain ⟨hready, rfl, -⟩ := Axis.setPosition_eq_some.mp hf
    exact .setPos x v hready
  | axisReset x =>
    refine axisOp_outcome rfl h fun a b w hf => ?_
    obtain ⟨herror, rfl, -⟩ := Axis.resetFromError_eq_some.mp hf
    exact .axisReset x herror
  | getPos | busy | getState | getMaxvel | getAccel | getStopmode | getHomedir | getCanhome => exact readOp_outcome rfl h
  | getAxis => exact readOp_outcome (read := fun _ => 0) rfl h
  | checkFinished => exact execCheckFinished_outcome h
  | setMaxvel => exact execSetMaxvel_outcome h
  | setAccel => exact execSetAccel_outcome h
  | setStopmode => exact execSetStopmode_outcome h
  | setup => exact execSetup_outcome h
  | saveSettings => exact execSaveSettings_outcome h
  | restoreSettings => exact execRestoreSettings_outcome h
  | lineGo | lineSet | lineGet | lineHome | lineState | lineAlive | tick | rx | reply | handlerDone =>
    simp [isOp, opAxis] at hi

end Outcome

/-! ### What an OP writes and leaves -/

theorem anyBusy_eq_false_iff {axes : List Axis} : anyBusy axes = false ↔ ∀ a ∈ axes, a.state.busy = false := by
  simp [anyBusy]

/-- A finished latch is set only at rest (R42, R43). -/
theorem RunState.busy_of_finished {r : RunState} (h : r.finished = true) : r.busy = false := by
  cases r <;> simp [RunState.finished, RunState.busy] at h ⊢

/-- What no OP writes, and the one response it appends. -/
structure State.OpKeeps (s t : State) : Prop where
  params    : t.params = s.params
  parser    : t.parser = s.parser
  handler   : t.handler = s.handler
  inbox     : t.inbox = s.inbox
  tx        : t.obs.tx = s.obs.tx
  messages  : t.obs.messages = s.obs.messages
  steps     : t.obs.steps = s.obs.steps
  responses : ∃ r : Response, t.obs.responses = s.obs.responses ++ [r]
  count     : t.numAxes = s.numAxes

section OpFrame

variable {i : Instr} {s t : State}

theorem OpOutcome.keeps (h : OpOutcome i s t) : s.OpKeeps t := by
  cases h with
  | failed | setup | save => exact ⟨rfl, rfl, rfl, rfl, rfl, rfl, rfl, ⟨_, rfl⟩, rfl⟩
  | axis => exact ⟨rfl, rfl, rfl, rfl, rfl, rfl, rfl, ⟨_, rfl⟩, List.length_set⟩
  | restore => exact ⟨rfl, rfl, rfl, rfl, rfl, rfl, rfl, ⟨_, rfl⟩, length_restoreAxes _ _ _⟩

theorem OpOutcome.registry_cases (h : OpOutcome i s t) :
    t.registry = s.registry ∨ ∃ f, i = .setup f ∧ f ≠ 0 ∧ t.registry = { configured := true, frequency := f } := by
  cases h with
  | setup hi hf => exact .inr ⟨_, hi, hf, rfl⟩
  | failed | axis | save | restore => exact .inl rfl

theorem OpOutcome.store_cases (h : OpOutcome i s t) :
    t.store = s.store ∨ ∃ off : Word, i = .saveSettings off ∧ off.toNat + s.settingsBytes ≤ s.params.storeSize ∧
      t.store = s.store.writeBytes off.toNat (encodeSettings s.axes) := by
  cases h with
  | save v hi hfits => exact .inr ⟨_, hi, hfits, rfl⟩
  | failed | axis | setup | restore => exact .inl rfl

/-- An OP changes only bytes of the settings block it saves (R192). -/
theorem OpOutcome.read_of_ne (h : OpOutcome i s t) {o : Nat} (ho : t.store.read o ≠ s.store.read o) :
    ∃ off : Word, i = .saveSettings off ∧ off.toNat ≤ o ∧ o < off.toNat + 11 * s.numAxes := by
  rcases h.store_cases with hst | ⟨off, hi, -, hst⟩
  · exact absurd (by rw [hst]) ho
  · refine ⟨off, hi, ?_⟩
    by_contra hout
    refine ho ?_
    rw [hst]
    refine Memory.read_writeBytes_outside _ _ _ _ ?_
    rw [length_encodeSettings, recordBytes]
    change ¬(off.toNat ≤ o ∧ o < off.toNat + 11 * s.axes.length) at hout
    omega

/-- What an OP leaves of each axis; only the addressed axis changes, except by RESTORE_SETTINGS (R74, R194). -/
theorem OpOutcome.axis_change (h : OpOutcome i s t) {j : Nat} {a b : Axis} (ha : s.axes[j]? = some a)
    (hb : t.axes[j]? = some b) : Axis.OpChange s.params s.registry i a b ∧
      (b = a ∨ (∃ x, opAxis i = some x ∧ x.toNat = j) ∨ ∃ off, i = .restoreSettings off) := by
  cases h with
  | failed | setup | save =>
    obtain rfl := Option.some.inj (ha.symm.trans hb)
    exact ⟨.keep i a, .inl rfl⟩
  | @axis x c d v hx hc hcd =>
    by_cases hj : x.toNat = j
    · subst hj
      obtain rfl := Option.some.inj (ha.symm.trans hc)
      have hlt := (List.getElem?_eq_some_iff.mp ha).1
      have hbd : d = b := by simpa [hlt] using hb
      exact ⟨hbd ▸ hcd, .inr (.inl ⟨x, hx, rfl⟩)⟩
    · have hba : a = b := by simpa [hj, ha] using hb
      exact ⟨hba ▸ .keep i a, .inl hba.symm⟩
  | @restore off v hi hidle =>
    subst hi
    obtain ⟨c, rfl⟩ : ∃ c, { a with config := c } = b :=
      ⟨_, by simpa [getElem?_restoreAxes, ha] using hb⟩
    exact ⟨.restore off c (anyBusy_eq_false_iff.mp hidle a (List.mem_of_getElem? ha)), .inr (.inr ⟨off, rfl⟩)⟩

/-- An OP changes no axis that is busy (R112, R336). -/
theorem Axis.OpChange.eq_of_busy {p : Params} {r : Registry} {a b : Axis} (h : Axis.OpChange p r i a b)
    (hbusy : a.state.busy = true) : b = a := by
  cases h with
  | keep => rfl
  | move _ hready | home _ hready | setPos _ _ hready => simp [hready, RunState.busy] at hbusy
  | axisReset _ herror => simp [herror, RunState.busy] at hbusy
  | checkFinished _ hfin => simp [RunState.busy_of_finished hfin] at hbusy
  | setMaxvel _ _ hidle | setAccel _ _ hidle | setStopmode _ _ _ hidle | restore _ _ hidle => simp [hidle] at hbusy

/-- The pieces of an axis, each with the OPs that may write it (R309, R148). -/
structure Axis.OpFrame (i : Instr) (a b : Axis) : Prop where
  build         : b.build = a.build
  limit         : b.limit = a.limit
  step          : b.step = a.step
  maxVelocity   : b.config.maxVelocity ≠ a.config.maxVelocity → (∃ x v, i = .setMaxvel x v) ∨ ∃ o, i = .restoreSettings o
  acceleration  : b.config.acceleration ≠ a.config.acceleration → (∃ x v, i = .setAccel x v) ∨ ∃ o, i = .restoreSettings o
  stopMode      : b.config.stopMode ≠ a.config.stopMode → (∃ x v, i = .setStopmode x v) ∨ ∃ o, i = .restoreSettings o
  home          : b.config.homeDirection ≠ a.config.homeDirection ∨ b.config.canHome ≠ a.config.canHome →
    ∃ o, i = .restoreSettings o
  enable        : b.enable ≠ a.enable → ∃ x, (∃ v, i = .moveAbs x v ∨ i = .moveRel x v) ∨ i = .home x
  position      : b.position ≠ a.position → ∃ x, (∃ p, i = .setPos x p) ∨ i = .axisReset x
  heading       : b.direction ≠ a.direction ∨ b.dir ≠ a.dir ∨ b.stepsRemaining ≠ a.stepsRemaining →
    ∃ x, (∃ v, i = .moveAbs x v ∨ i = .moveRel x v) ∨ i = .home x ∨ i = .axisReset x
  profile       : b.runLength ≠ a.runLength ∨ b.riseLength ≠ a.riseLength ∨ b.error ≠ a.error →
    ∃ x, (∃ v, i = .moveAbs x v ∨ i = .moveRel x v) ∨ i = .axisReset x
  state         : b.state ≠ a.state →
    ∃ x, (∃ v, i = .moveAbs x v ∨ i = .moveRel x v) ∨ i = .home x ∨ i = .checkFinished x ∨ i = .axisReset x

theorem Axis.OpChange.frame {p : Params} {r : Registry} {a b : Axis} (h : Axis.OpChange p r i a b) :
    Axis.OpFrame i a b := by
  cases h with
  | move hi => rcases hi with rfl | rfl <;> constructor <;> simp
  | keep | home | setPos | axisReset | checkFinished | setMaxvel | setAccel | setStopmode | restore =>
    constructor <;> simp

end OpFrame

/-! ### What a line, a byte or a handler event does -/

/-- Every outcome of an instruction that is neither an OP nor TICK; a reply or a Message may come with the buffer emptied (R210-R216,
R232-R246, R263, R265). -/
inductive SerialOutcome (s : State) : State → Prop where
  | ignored : SerialOutcome s s
  | replied {u : State} (hu : u = s ∨ u = s.emptyBuffer) (m : Marker) (text : List Byte) : SerialOutcome s (u.reply m text)
  | presented {u : State} (hu : u = s ∨ u = s.emptyBuffer) (ty : LineType) (f : Vector Word 4) :
      SerialOutcome s (u.accept ty f)
  | overflowed : SerialOutcome s s.overflow
  | stored {b : Byte} (hkeep : s.parser.discarding = false) (hb : printable b = true)
      (hlen : s.parser.buf.length < s.params.cmdBufLen) :
      SerialOutcome s { s with parser := { s.parser with buf := s.parser.buf ++ [b] } }
  | resumed : SerialOutcome s { s with parser := { s.parser with discarding := false } }
  | released : SerialOutcome s { s with parser := { s.parser with handlerBusy := false } }

section Serial

variable {s t : State}

theorem whenHandlerIdle_outcome {u : State} (h : whenHandlerIdle s u = .next t) (hu : SerialOutcome s u) :
    SerialOutcome s t := by
  unfold whenHandlerIdle at h
  split at h <;> cases h
  · exact .ignored
  · exact hu

/-- SET and GET present their Message or answer BAD AXIS (R236). -/
theorem acceptOrBadAxis_outcome (s : State) (valid : Bool) (ty : LineType) (f : Vector Word 4) :
    SerialOutcome s (if valid then s.accept ty f else s.protocolError .badAxis) := by
  cases valid
  · exact .replied (.inl rfl) _ _
  · exact .presented (.inl rfl) ty f

theorem execRx_outcome {b : Byte} (h : execRx b s = .next t) : SerialOutcome s t := by
  rcases execRx_cases h with rfl | ⟨-, -, -, rfl⟩ | ⟨hidle, -, -, -, hline⟩ | ⟨-, -, -, -, rfl⟩ | ⟨-, hkeep, hb, hlen, rfl⟩
  · exact .ignored
  · exact .resumed
  · rcases processCommand_cases hline hidle with ⟨ty, f, rfl⟩ | ⟨e, rfl⟩
    · exact .presented (.inr rfl) ty f
    · exact .replied (.inr rfl) _ _
  · exact .overflowed
  · exact .stored hkeep hb hlen

theorem execReply_outcome {m : Marker} {text : List Byte} (h : execReply m text s = .next t) : SerialOutcome s t := by
  unfold execReply at h
  split at h <;> cases h
  · exact .replied (.inl rfl) m text
  · exact .ignored

theorem execHandlerDone_outcome (h : execHandlerDone s = .next t) : SerialOutcome s t := by
  unfold execHandlerDone at h
  split at h <;> cases h
  · exact .released
  · exact .ignored

/-- Every instruction but the OPs and TICK has one of the outcomes of `SerialOutcome`. -/
theorem exec_serial_outcome {i : Instr} (hop : isOp i = false) (htick : i ≠ .tick) (h : exec i s = .next t) :
    SerialOutcome s t := by
  cases i with
  | lineGo | lineHome | lineState | lineAlive => exact whenHandlerIdle_outcome h (.presented (.inl rfl) _ _)
  | lineSet | lineGet => exact whenHandlerIdle_outcome h (acceptOrBadAxis_outcome s _ _ _)
  | tick => exact absurd rfl htick
  | rx => exact execRx_outcome h
  | reply => exact execReply_outcome h
  | handlerDone => exact execHandlerDone_outcome h
  | moveAbs | moveRel | home | setPos | axisReset | getPos | busy | checkFinished | getState | getMaxvel | setMaxvel
  | getAccel | setAccel | getStopmode | setStopmode | getHomedir | getCanhome | setup | getAxis | saveSettings
  | restoreSettings => simp [isOp, opAxis] at hop

/-- The pieces that lines, bytes and handler events leave alone. -/
structure State.SerialKeeps (s t : State) : Prop where
  params   : t.params = s.params
  registry : t.registry = s.registry
  axes     : t.axes = s.axes
  store    : t.store = s.store

theorem SerialOutcome.keeps (h : SerialOutcome s t) : s.SerialKeeps t := by
  cases h with
  | replied hu | presented hu => rcases hu with rfl | rfl <;> exact ⟨rfl, rfl, rfl, rfl⟩
  | ignored | overflowed | stored | resumed | released => exact ⟨rfl, rfl, rfl, rfl⟩

/-- The three kinds of instruction: an OP, TICK, or one of the serial line and the handler port. -/
theorem exec_outcome {i : Instr} (h : exec i s = .next t) :
    OpOutcome i s t ∨ (i = .tick ∧ execTick s = .next t) ∨ SerialOutcome s t := by
  cases hop : isOp i with
  | true => exact .inl (exec_op_outcome hop h)
  | false =>
    by_cases htick : i = .tick
    · subst htick
      exact .inr (.inl ⟨rfl, h⟩)
    · exact .inr (.inr (exec_serial_outcome hop htick h))

end Serial

/-! ### The frame of a tick -/

/-- The pieces of an axis that a tick leaves alone, and when it writes ENABLE and direction (R160-R168). -/
structure Axis.TickFrame (a b : Axis) : Prop where
  fixtures   : a.SameFixtures b
  runLength  : b.runLength = a.runLength
  riseLength : b.riseLength = a.riseLength
  enable     : b.enable ≠ a.enable → a.config.stopMode = .disable ∧ b.state.busy = false
  direction  : b.direction ≠ a.direction → a.state = .homingSeek ∧ b.state = .homingBackoff

theorem Axis.TickFrame.refl (a : Axis) : a.TickFrame a := ⟨⟨rfl, rfl, rfl⟩, rfl, rfl, absurd rfl, absurd rfl⟩

theorem Axis.enterError_tickFrame (a : Axis) : a.TickFrame a.enterError := by
  constructor
  case fixtures => constructor <;> simp
  all_goals simp +contextual [RunState.busy]

theorem Axis.movePulse_tickFrame (a : Axis) (r : Nat) : a.TickFrame (a.movePulse r) := by
  rw [Axis.movePulse_eq]
  split
  all_goals
    constructor
    case fixtures => constructor <;> rfl
    all_goals simp +contextual [RunState.busy]

theorem Axis.homePulse_tickFrame (a : Axis) : a.TickFrame a.homePulse.1 := by
  rw [Axis.homePulse_eq]
  split
  all_goals
    constructor
    case fixtures => constructor <;> rfl
    all_goals simp +contextual [RunState.busy]

theorem Axis.tick_frame (B : Word) (a : Axis) : a.TickFrame (a.tick B).1 := by
  cases hs : a.state with
  | moving =>
    rcases Axis.tick_moving_cases B hs with ⟨-, e⟩ | ⟨-, -, e⟩ | ⟨-, -, e⟩ <;> rw [e]
    · exact a.enterError_tickFrame
    · exact ⟨⟨rfl, rfl, rfl⟩, rfl, rfl, absurd rfl, absurd rfl⟩
    · exact a.movePulse_tickFrame _
  | homingSeek =>
    rcases Axis.tick_seek_cases B hs with ⟨-, e⟩ | ⟨-, -, e⟩ | ⟨-, -, e⟩ <;> rw [e]
    · exact a.enterError_tickFrame
    · exact ⟨⟨rfl, rfl, rfl⟩, rfl, rfl, absurd rfl, fun _ => ⟨hs, rfl⟩⟩
    · exact a.homePulse_tickFrame
  | homingBackoff =>
    rcases Axis.tick_backoff_cases B hs with ⟨-, e⟩ | ⟨-, -, e⟩ | ⟨-, -, e⟩ <;> rw [e]
    · exact a.enterError_tickFrame
    · refine ⟨⟨?_, ?_, ?_⟩, ?_, ?_, ?_, ?_⟩ <;> simp +contextual [RunState.busy]
    · exact a.homePulse_tickFrame
  | ready | finishedMoving | finishedHoming | error =>
    rw [Axis.tick_idle (by simp [hs, RunState.busy])]
    exact .refl a

/-! ### The invariant of one axis (R27) -/

section AxisInv

variable {B : Word} {a : Axis}

/-- At rest, R27 is R27.1 and R27.4. -/
theorem Axis.Inv.of_idle (hidle : a.state.busy = false) (h0 : a.stepsRemaining = 0) (hdir : a.dir = dirLevel a.direction) :
    a.Inv B := by
  constructor
  case count => simp [h0, hidle]
  case dirOutput => exact hdir
  all_goals intro h; simp_all [RunState.busy]

/-- In a homing phase, R27 is the countdown and the direction of the phase (R167, R168). -/
theorem Axis.Inv.of_homing (hhoming : a.state = .homingSeek ∨ a.state = .homingBackoff) (h0 : a.stepsRemaining ≠ 0)
    (hbudget : a.stepsRemaining.toNat ≤ B.toNat) (hdir : a.dir = dirLevel a.direction)
    (hseek : a.state = .homingSeek → a.direction = a.config.homeDirection)
    (hback : a.state = .homingBackoff → a.direction = reverseDirection a.config.homeDirection) (hen : a.enable = true) :
    a.Inv B := by
  have hmoving : a.state ≠ .moving := by rcases hhoming with h | h <;> simp [h]
  have hbusy : a.state.busy = true := RunState.busy_iff.mpr (.inr hhoming)
  exact {
    count := iff_of_false h0 (by simp [hbusy]), moveShape := fun h => absurd h hmoving, movePhase := fun h => absurd h hmoving
    moveTarget := fun h => absurd h hmoving, dirOutput := hdir, homeBudget := fun _ => hbudget, seekDir := hseek
    backoffDir := hback, energized := fun _ => hen }

/-- In a move, R27 is the phase after some k ticks (R27.3), from which the shape (R27.2) follows, and its end (R163). -/
theorem Axis.Inv.of_moving (hs : a.state = .moving) (h0 : a.stepsRemaining ≠ 0) (hrun : 1 ≤ a.runLength.toNat)
    (hrise : a.runLength.toNat ≤ a.riseLength.toNat) {k : Nat} (hk : k < a.riseLength.toNat)
    (hsteps : a.stepsRemaining.toNat = a.runLength.toNat - k * a.runLength.toNat / a.riseLength.toNat)
    (herr : a.error.toNat =
      k * a.runLength.toNat - k * a.runLength.toNat / a.riseLength.toNat * a.riseLength.toNat)
    (htarget : FitsInt32 a.moveEnd) (hdir : a.dir = dirLevel a.direction) (hen : a.enable = true) : a.Inv B := by
  have hlt : a.error.toNat < a.riseLength.toNat := by
    rw [herr, Nat.mul_comm (_ / _), ← Nat.mod_eq_sub_mul_div]
    exact Nat.mod_lt _ (by omega)
  have hpos : a.stepsRemaining.toNat ≠ 0 := fun h => h0 (BitVec.eq_of_toNat_eq h)
  constructor
  case count => exact iff_of_false h0 (by simp [hs, RunState.busy])
  case moveShape => exact fun _ => ⟨hrun, hrise, hlt, by omega, hsteps ▸ Nat.sub_le _ _⟩
  case movePhase => exact fun _ => ⟨k, hk, hsteps, herr⟩
  case moveTarget => exact fun _ => htarget
  case dirOutput => exact hdir
  case energized => exact fun _ => hen
  all_goals simp [hs]

/-- R27.1 for a busy axis. -/
theorem Axis.Inv.steps_ne_zero (h : a.Inv B) (hbusy : a.state.busy = true) : a.stepsRemaining ≠ 0 := fun h0 => by
  simp [h.count.mp h0] at hbusy

theorem Axis.Inv.resetOf (b : AxisBuild) (l : Bool) : (Axis.resetOf b l).Inv B := .of_idle rfl rfl rfl

/-- Driving the LIMIT input is no concern of the invariant. -/
theorem Axis.Inv.limit (h : a.Inv B) (l : Bool) : Axis.Inv B { a with limit := l } := by
  obtain ⟨hcount, hshape, hphase, htarget, hdir, hbudget, hseek, hback, hen⟩ := h
  exact ⟨hcount, hshape, hphase, htarget, hdir, hbudget, hseek, hback, hen⟩

/-- A write to an axis at rest that keeps it at rest and leaves its count, direction and DIR keeps the invariant. -/
theorem Axis.Inv.of_rest {b : Axis} (h : a.Inv B) (ha : a.state.busy = false) (hb : b.state.busy = false)
    (hcount : b.stepsRemaining = a.stepsRemaining) (hdirection : b.direction = a.direction) (hdir : b.dir = a.dir) :
    b.Inv B :=
  .of_idle hb (hcount ▸ h.count.mpr ha) (by rw [hdir, hdirection, h.dirOutput])

/-! #### The OPs -/

/-- The end of a move just committed is its target (R104, R163). -/
theorem moveEnd_commit {target : Int} {rise : Nat} (hD : (target - a.position.toInt).natAbs < 2 ^ 32) :
    (a.commit (target - a.position.toInt) (target - a.position.toInt).natAbs rise).moveEnd = target := by
  simp only [Axis.moveEnd, Axis.commit_position, Axis.commit_direction, Axis.commit_stepsRemaining,
    BitVec.toNat_ofNat, Nat.mod_eq_of_lt hD]
  split <;> simp only [directionInt] <;> omega

theorem Axis.Inv.commit {target : Int} {rise : Nat} (hfits : FitsInt32 target) (hne : target ≠ a.position.toInt)
    (hlow : (target - a.position.toInt).natAbs ≤ rise) (hhigh : rise ≤ 4294967295) :
    (a.commit (target - a.position.toInt) (target - a.position.toInt).natAbs rise).Inv B := by
  have hend := moveEnd_commit (a := a) (target := target) (rise := rise) (by omega)
  generalize hD : (target - a.position.toInt).natAbs = D at *
  have hDnat : (BitVec.ofNat 32 D).toNat = D := Nat.mod_eq_of_lt (by omega)
  have hrnat : (BitVec.ofNat 32 rise).toNat = rise := Nat.mod_eq_of_lt (by omega)
  have hD0 : BitVec.ofNat 32 D ≠ 0 := fun h => by
    have : D = 0 := by rw [← hDnat, h]; rfl
    omega
  exact .of_moving (k := 0) rfl hD0 (by simp only [Axis.commit_runLength]; omega)
    (by simp only [Axis.commit_runLength, Axis.commit_riseLength]; omega)
    (by simp only [Axis.commit_riseLength]; omega) (by simp) (by simp) (by rwa [hend]) rfl rfl

theorem Axis.OpChange.inv {p : Params} {r : Registry} {i : Instr} {b : Axis} (h : Axis.OpChange p r i a b)
    (hp : p.homeTickBudget ≠ 0) (ha : a.Inv p.homeTickBudget) : b.Inv p.homeTickBudget := by
  cases h with
  | keep => exact ha
  | move _ _ _ hfits hne hlow hhigh => exact .commit hfits hne hlow hhigh
  | home => exact .of_homing (.inl rfl) hp le_rfl rfl (fun _ => rfl) (by simp) rfl
  | setPos _ _ hready =>
    have hidle : a.state.busy = false := by rw [hready]; rfl
    exact ha.of_rest hidle hidle rfl rfl rfl
  | axisReset => exact .of_idle rfl rfl rfl
  | checkFinished _ hfin => exact ha.of_rest (RunState.busy_of_finished hfin) rfl rfl rfl rfl
  | setMaxvel _ _ hidle | setAccel _ _ hidle | setStopmode _ _ _ hidle | restore _ _ hidle =>
    exact ha.of_rest hidle hidle rfl rfl rfl

/-- Before SETUP no OP sets an axis in motion (D27). -/
theorem Axis.OpChange.idle_of_unconfigured {p : Params} {r : Registry} {i : Instr} {b : Axis}
    (h : Axis.OpChange p r i a b) (hr : r.configured = false) (ha : a.state.busy = false) : b.state.busy = false := by
  cases h with
  | move _ _ hconf | home _ _ hconf => simp [hr] at hconf
  | axisReset | checkFinished => rfl
  | keep | setPos | setMaxvel | setAccel | setStopmode | restore => exact ha

/-! #### The tick -/

theorem toNat_sub_one {w : Word} (h : w ≠ 0) : (w - 1).toNat = w.toNat - 1 := by bv_omega

theorem Axis.Inv.enterError (h : a.Inv B) : a.enterError.Inv B :=
  .of_idle (by simp [RunState.busy]) (by simp) (by simp [h.dirOutput])

/-- A pulse of a homing phase: one step less of its budget, or Error (R167-R169). -/
theorem Axis.Inv.homePulse (h : a.Inv B) (hhoming : a.state = .homingSeek ∨ a.state = .homingBackoff) :
    a.homePulse.1.Inv B := by
  have hbusy : a.state.busy = true := RunState.busy_iff.mpr (.inr hhoming)
  have h0 : a.stepsRemaining ≠ 0 := h.steps_ne_zero hbusy
  have hnat := toNat_sub_one h0
  have hbudget := h.homeBudget hhoming
  rw [Axis.homePulse_eq]
  split
  · exact .of_idle rfl rfl h.dirOutput
  · next hlast =>
    exact .of_homing hhoming hlast (show (a.stepsRemaining - 1).toNat ≤ _ by omega) h.dirOutput h.seekDir h.backoffDir
      (h.energized hbusy)

theorem Axis.Inv.tick_seek (h : a.Inv B) (hB : B ≠ 0) (hs : a.state = .homingSeek) : (a.tick B).1.Inv B := by
  rcases Axis.tick_seek_cases B hs with ⟨-, e⟩ | ⟨-, -, e⟩ | ⟨-, -, e⟩ <;> rw [e]
  · exact h.enterError
  · exact .of_homing (.inr rfl) hB le_rfl rfl (by simp) (fun _ => congrArg reverseDirection (h.seekDir hs))
      (h.energized (by rw [hs]; rfl))
  · exact h.homePulse (.inl hs)

theorem Axis.Inv.tick_backoff (h : a.Inv B) (hs : a.state = .homingBackoff) : (a.tick B).1.Inv B := by
  rcases Axis.tick_backoff_cases B hs with ⟨-, e⟩ | ⟨-, -, e⟩ | ⟨-, -, e⟩ <;> rw [e]
  · exact h.enterError
  · exact .of_idle (by simp [RunState.busy]) (by simp) (by simp [h.dirOutput])
  · exact h.homePulse (.inr hs)

end AxisInv

/-! #### The accumulator of a move: after k ticks it has emitted floor(k*R/r) pulses and holds the rest of k*R (R27.3) -/

section Accumulator

variable {k R r : Nat}

/-- A tick without a pulse is not the last one, and leaves the quotient as it is. -/
theorem accumulator_quiet (hk : k < r) (hR : 1 ≤ R) (hq : k * R - k * R / r * r + R < r) :
    k + 1 < r ∧ (k + 1) * R / r = k * R / r ∧
      (k + 1) * R - (k + 1) * R / r * r = k * R - k * R / r * r + R := by
  have hle : k * R / r * r ≤ k * R := Nat.div_mul_le_self _ _
  have hsucc : (k + 1) * R = k * R + R := Nat.succ_mul k R
  have hdiv : (k + 1) * R / r = k * R / r :=
    Nat.div_eq_of_lt_le (by omega) (by rw [hsucc, Nat.succ_mul]; omega)
  refine ⟨?_, hdiv, by rw [hdiv]; omega⟩
  by_contra hlast
  have hr : k + 1 = r := by omega
  rw [hr, Nat.mul_div_cancel_left R (by omega)] at hdiv
  rw [← hdiv, Nat.mul_comm R r, ← hr] at hq hle
  omega

/-- A tick with a pulse adds one to the quotient. -/
theorem accumulator_pulse (hk : k < r) (hR : R ≤ r) (hp : r ≤ k * R - k * R / r * r + R) :
    (k + 1) * R / r = k * R / r + 1 ∧
      (k + 1) * R - (k + 1) * R / r * r = k * R - k * R / r * r + R - r := by
  have hle : k * R / r * r ≤ k * R := Nat.div_mul_le_self _ _
  have hlt : k * R < k * R / r * r + r := Nat.lt_div_mul_add (by omega)
  have hsucc : (k + 1) * R = k * R + R := Nat.succ_mul k R
  have hdiv : (k + 1) * R / r = k * R / r + 1 :=
    Nat.div_eq_of_lt_le (by rw [hsucc, Nat.succ_mul]; omega) (by rw [hsucc, Nat.succ_mul, Nat.succ_mul]; omega)
  exact ⟨hdiv, by rw [hdiv, hsucc, Nat.succ_mul]; omega⟩

end Accumulator

section MoveTick

variable {B : Word} {a : Axis}

theorem Axis.Inv.moveBroken_eq_false (h : a.Inv B) (hs : a.state = .moving) : a.moveBroken = false := by
  obtain ⟨hrun, hrise, -, -, -⟩ := h.moveShape hs
  exact Axis.moveBroken_eq_false.mpr
    ⟨fun h0 => by simp [h0] at hrise; omega, h.steps_ne_zero (by rw [hs]; rfl), hrise⟩

theorem Axis.Inv.moving_quiet (h : a.Inv B) (hs : a.state = .moving)
    (hq : a.error.toNat + a.runLength.toNat < a.riseLength.toNat) :
    Axis.Inv B { a with error := BitVec.ofNat 32 (a.error.toNat + a.runLength.toNat) } := by
  obtain ⟨hrun, hrise, -, -, -⟩ := h.moveShape hs
  obtain ⟨k, hk, hsteps, herr⟩ := h.movePhase hs
  have hnat : (BitVec.ofNat 32 (a.error.toNat + a.runLength.toNat)).toNat = a.error.toNat + a.runLength.toNat :=
    Nat.mod_eq_of_lt (hq.trans a.riseLength.isLt)
  obtain ⟨hnext, hdiv, hrest⟩ := accumulator_quiet hk hrun (herr ▸ hq)
  exact .of_moving (k := k + 1) hs (h.steps_ne_zero (by rw [hs]; rfl)) hrun hrise hnext (hdiv ▸ hsteps)
    (by rw [hrest, ← herr]; exact hnat) (h.moveTarget hs) h.dirOutput (h.energized (by rw [hs]; rfl))

/-- One step towards a target that is an int32 does not wrap, and leaves the end of the move where it is (R163). -/
theorem Axis.fitsInt32_moveEnd_of_pulse {b : Axis} (h : FitsInt32 a.moveEnd) (h0 : a.stepsRemaining ≠ 0)
    (hpos : b.position = a.position + directionWord a.direction) (hdir : b.direction = a.direction)
    (hsteps : b.stepsRemaining = a.stepsRemaining - 1) : FitsInt32 b.moveEnd := by
  have hnat := toNat_sub_one h0
  have h1 : 1 ≤ a.stepsRemaining.toNat := Nat.one_le_iff_ne_zero.mpr fun hz => h0 (BitVec.eq_of_toNat_eq hz)
  have hhere := fitsInt32_toInt a.position
  simp only [Axis.moveEnd] at h ⊢
  have hstep : FitsInt32 (a.position.toInt + directionInt a.direction) := by
    cases hd : a.direction <;> simp only [hd, directionInt, FitsInt32] at h hhere ⊢ <;> omega
  rw [hpos, hdir, hsteps, toInt_add_directionWord _ _ hstep, hnat]
  cases hd : a.direction <;> simp only [hd, directionInt, FitsInt32] at h ⊢ <;> omega

theorem Axis.Inv.movePulse (h : a.Inv B) (hs : a.state = .moving)
    (hp : a.riseLength.toNat ≤ a.error.toNat + a.runLength.toNat) :
    (a.movePulse (a.error.toNat + a.runLength.toNat - a.riseLength.toNat)).Inv B := by
  obtain ⟨hrun, hrise, hlt, -, -⟩ := h.moveShape hs
  obtain ⟨k, hk, hsteps, herr⟩ := h.movePhase hs
  have h0 : a.stepsRemaining ≠ 0 := h.steps_ne_zero (by rw [hs]; rfl)
  have hcount := toNat_sub_one h0
  obtain ⟨hdiv, hrest⟩ := accumulator_pulse hk hrise (herr ▸ hp)
  rw [Axis.movePulse_eq]
  split
  · exact .of_idle rfl rfl h.dirOutput
  · next hlast =>
    have hleft : (a.stepsRemaining - 1).toNat ≠ 0 := fun hz => hlast (BitVec.eq_of_toNat_eq hz)
    have hnext : k + 1 < a.riseLength.toNat := by
      by_contra hend
      rw [show k + 1 = a.riseLength.toNat by omega, Nat.mul_div_cancel_left _ (by omega)] at hdiv
      omega
    have hnat : (BitVec.ofNat 32 (a.error.toNat + a.runLength.toNat - a.riseLength.toNat)).toNat =
        a.error.toNat + a.runLength.toNat - a.riseLength.toNat :=
      Nat.mod_eq_of_lt (by have := a.riseLength.isLt; omega)
    have hsteps' : (a.stepsRemaining - 1).toNat =
        a.runLength.toNat - (k + 1) * a.runLength.toNat / a.riseLength.toNat := by
      rw [hdiv]
      omega
    exact .of_moving (k := k + 1) hs hlast hrun hrise hnext hsteps' (by rw [hrest, ← herr]; exact hnat)
      (Axis.fitsInt32_moveEnd_of_pulse (h.moveTarget hs) h0 rfl rfl rfl) h.dirOutput (h.energized (by rw [hs]; rfl))

theorem Axis.Inv.tick_moving (h : a.Inv B) (hs : a.state = .moving) : (a.tick B).1.Inv B := by
  rcases Axis.tick_moving_cases B hs with ⟨hbroken, -⟩ | ⟨-, hq, e⟩ | ⟨-, hp, e⟩
  · simp [h.moveBroken_eq_false hs] at hbroken
  · rw [e]; exact h.moving_quiet hs hq
  · rw [e]; exact h.movePulse hs hp

/-- A tick keeps the invariant of an axis (R27). -/
theorem Axis.Inv.tick (h : a.Inv B) (hB : B ≠ 0) : (a.tick B).1.Inv B := by
  cases hs : a.state with
  | moving => exact h.tick_moving hs
  | homingSeek => exact h.tick_seek hB hs
  | homingBackoff => exact h.tick_backoff hs
  | ready | finishedMoving | finishedHoming | error =>
    rw [Axis.tick_idle (by simp [hs, RunState.busy])]
    exact h

end MoveTick

/-! ### The invariant of the machine -/

section StateInv

variable {s t : State}

/-- The invariant does not speak of the observation, the handler's place or the pending inputs. -/
theorem State.Inv.of_same (h : s.Inv) (hparams : t.params = s.params) (hregistry : t.registry = s.registry)
    (haxes : t.axes = s.axes) (hparser : t.parser = s.parser) (hstore : t.store = s.store) : t.Inv := by
  cases s; cases t
  subst hparams hregistry haxes hparser hstore
  exact { h with }

theorem State.Inv.of_op {i : Instr} (h : s.Inv) (hop : OpOutcome i s t) : t.Inv := by
  have hk := hop.keeps
  have haxes (b : Axis) (hb : b ∈ t.axes) : ∃ a ∈ s.axes, Axis.OpChange s.params s.registry i a b := by
    obtain ⟨j, hj, rfl⟩ := List.mem_iff_getElem.mp hb
    have hj' : j < s.axes.length := lt_of_lt_of_eq hj hk.count
    exact ⟨s.axes[j], List.getElem_mem hj',
      (hop.axis_change (List.getElem?_eq_getElem hj') (List.getElem?_eq_getElem hj)).1⟩
  constructor
  case params => exact hk.params ▸ h.params
  case axisCount => exact hk.count ▸ h.axisCount
  case axes =>
    intro b hb
    obtain ⟨a, ha, hab⟩ := haxes b hb
    rw [hk.params]
    exact hab.inv h.params.2.1 (h.axes a ha)
  case unconfigured =>
    intro hconf
    rcases hop.registry_cases with hr | ⟨f, -, -, hr⟩ <;> rw [hr] at hconf ⊢
    · obtain ⟨hfreq, hidle⟩ := h.unconfigured hconf
      refine ⟨hfreq, anyBusy_eq_false_iff.mpr fun b hb => ?_⟩
      obtain ⟨a, ha, hab⟩ := haxes b hb
      exact hab.idle_of_unconfigured hconf (anyBusy_eq_false_iff.mp hidle a ha)
    · simp at hconf
  case configured =>
    rcases hop.registry_cases with hr | ⟨f, -, hf, hr⟩ <;> rw [hr]
    · exact h.configured
    · exact fun _ => hf
  case buffer => rw [hk.parser, hk.params]; exact h.buffer
  case discarding => rw [hk.parser]; exact h.discarding
  case message => rw [hk.parser]; exact h.message
  case store =>
    obtain ⟨hwf, hin⟩ := h.store
    rcases hop.store_cases with hst | ⟨off, -, hfits, hst⟩ <;> rw [hst, hk.params]
    · exact h.store
    · refine ⟨Memory.wf_writeBytes _ _ _ hwf, fun c hc => ?_⟩
      rcases Memory.mem_writeBytes _ _ _ c hc with ⟨-, hlt⟩ | hc
      · rw [length_encodeSettings] at hlt
        exact hlt.trans_le hfits
      · exact hin c hc

theorem State.Inv.of_tick (h : s.Inv) (ht : execTick s = .next t) : t.Inv := by
  rcases execTick_cases ht with ⟨-, rfl⟩ | ⟨hconf, rfl⟩
  · exact h
  · have haxes : ∀ b ∈ tickAxes s.params.homeTickBudget s.axes, b.Inv s.params.homeTickBudget := by
      simp only [tickAxes, List.mem_map]
      rintro _ ⟨a, ha, rfl⟩
      exact (h.axes a ha).tick h.params.2.1
    exact { h with
      axisCount    := by simpa [State.numAxes] using h.axisCount
      axes         := haxes
      unconfigured := fun hc => by simp [hconf] at hc }

theorem lineType_enum_le (ty : LineType) : ty.enum.toNat ≤ 5 := by cases ty <;> decide

/-- What a line, a byte or a handler event leaves in the Interpreter is in the ranges of R36-R38. -/
theorem SerialOutcome.parser_ranges (h : SerialOutcome s t) (hs : s.Inv) :
    (t.parser.buf.length ≤ s.params.cmdBufLen ∧ t.parser.buf.all printable = true) ∧
      (t.parser.discarding = true → t.parser.buf = []) ∧
      t.parser.msg.typeDefIndex = t.parser.msg.type ∧ t.parser.msg.type.toNat ≤ 5 := by
  have hempty : ([] : List Byte).length ≤ s.params.cmdBufLen ∧ ([] : List Byte).all printable = true :=
    ⟨Nat.zero_le _, rfl⟩
  cases h with
  | ignored | released => exact ⟨hs.buffer, hs.discarding, hs.message⟩
  | replied hu =>
    rcases hu with rfl | rfl
    · exact ⟨hs.buffer, hs.discarding, hs.message⟩
    · exact ⟨hempty, fun _ => rfl, hs.message⟩
  | presented hu ty =>
    rcases hu with rfl | rfl
    · exact ⟨hs.buffer, hs.discarding, rfl, lineType_enum_le ty⟩
    · exact ⟨hempty, fun _ => rfl, rfl, lineType_enum_le ty⟩
  | overflowed => exact ⟨hempty, fun _ => rfl, hs.message⟩
  | stored hkeep hb hlen =>
    refine ⟨⟨by simpa using hlen, ?_⟩, by simp [hkeep], hs.message⟩
    simpa [List.all_append, hs.buffer.2] using hb
  | resumed => exact ⟨hs.buffer, by simp, hs.message⟩

theorem State.Inv.of_serial (h : s.Inv) (hserial : SerialOutcome s t) : t.Inv := by
  obtain ⟨hparams, hregistry, haxes, hstore⟩ := hserial.keeps
  obtain ⟨hbuf, hdisc, hmsg⟩ := hserial.parser_ranges h
  constructor
  case buffer => rw [hparams]; exact hbuf
  case discarding => exact hdisc
  case message => exact hmsg
  case params => exact hparams ▸ h.params
  case axisCount => rw [State.numAxes, haxes]; exact h.axisCount
  case axes => rw [haxes, hparams]; exact h.axes
  case unconfigured => rw [hregistry, haxes]; exact h.unconfigured
  case configured => rw [hregistry]; exact h.configured
  case store => rw [hstore, hparams]; exact h.store

theorem State.Inv.of_exec {i : Instr} (h : s.Inv) (he : exec i s = .next t) : t.Inv := by
  rcases exec_outcome he with hop | ⟨-, htick⟩ | hserial
  · exact h.of_op hop
  · exact h.of_tick htick
  · exact h.of_serial hserial

theorem State.Inv.driveLimit (h : s.Inv) (i : Nat) (level : Bool) : (s.driveLimit i level).Inv := by
  rw [State.driveLimit_eq]
  have haxes : ∀ b ∈ s.axes.modify i fun a => { a with limit := level },
      ∃ a ∈ s.axes, b = a ∨ b = { a with limit := level } := by
    intro b hb
    obtain ⟨j, hj⟩ := List.mem_iff_getElem?.mp hb
    rw [List.getElem?_modify] at hj
    obtain ⟨a, ha, rfl⟩ := Option.map_eq_some_iff.mp hj
    refine ⟨a, List.mem_of_getElem? ha, ?_⟩
    split
    · exact .inr rfl
    · exact .inl rfl
  exact { h with
    axisCount := by simpa [State.numAxes] using h.axisCount
    axes := fun b hb => by
      obtain ⟨a, ha, rfl | rfl⟩ := haxes b hb
      · exact h.axes _ ha
      · exact (h.axes a ha).limit level
    unconfigured := fun hconf => by
      obtain ⟨hfreq, hidle⟩ := h.unconfigured hconf
      refine ⟨hfreq, anyBusy_eq_false_iff.mpr fun b hb => ?_⟩
      obtain ⟨a, ha, rfl | rfl⟩ := haxes b hb
      · exact anyBusy_eq_false_iff.mp hidle _ ha
      · exact anyBusy_eq_false_iff.mp hidle a ha }

/-- A state whose axes, Registry and Interpreter have their reset values has the invariant, whatever it kept (R47, R330). -/
theorem State.Inv.of_reset (hparams : s.params.Legal) (hcount : 1 ≤ s.numAxes ∧ s.numAxes ≤ maxAxes)
    (haxes : ∀ a ∈ s.axes, ∃ b l, a = Axis.resetOf b l) (hregistry : s.registry = { configured := false, frequency := 0 })
    (hparser : s.parser = Interpreter.reset)
    (hstore : s.store.wf = true ∧ ∀ c ∈ s.store, c.1 < s.params.storeSize) : s.Inv := by
  constructor
  case params => exact hparams
  case axisCount => exact hcount
  case axes =>
    intro a ha
    obtain ⟨b, l, rfl⟩ := haxes a ha
    exact .resetOf b l
  case unconfigured =>
    refine fun _ => ⟨by rw [hregistry], anyBusy_eq_false_iff.mpr fun a ha => ?_⟩
    obtain ⟨b, l, rfl⟩ := haxes a ha
    rfl
  case configured => simp [hregistry]
  case buffer => rw [hparser]; exact ⟨Nat.zero_le _, rfl⟩
  case discarding => rw [hparser]; exact fun _ => rfl
  case message => rw [hparser]; exact ⟨rfl, Nat.zero_le _⟩
  case store => exact hstore

theorem State.Inv.powerOn (h : s.Inv) : s.powerOn.Inv :=
  .of_reset h.params (by simpa [State.numAxes] using h.axisCount)
    (fun a ha => by
      obtain ⟨b, -, rfl⟩ := List.mem_map.mp ha
      exact ⟨_, _, rfl⟩)
    rfl rfl h.store

theorem State.Inv.resetOf {b : Build} (h : b.Legal) : (State.resetOf b).Inv := by
  obtain ⟨hparams, hcount⟩ := h
  refine .of_reset hparams (by simpa [State.numAxes, State.resetOf] using hcount) (fun a ha => ?_) rfl rfl
    ⟨rfl, by simp [State.resetOf]⟩
  obtain ⟨c, -, rfl⟩ := List.mem_map.mp ha
  exact ⟨_, _, rfl⟩

theorem State.Inv.of_handlerStep (h : s.Inv) (ht : handlerStep s = .next t) : t.Inv := by
  rcases handlerStep_cases ht with ⟨-, rfl⟩ | ⟨-, -, rfl⟩ | ⟨-, ty, u, -, hu, rfl⟩
  · exact h.of_same rfl rfl rfl rfl rfl
  · exact h
  · exact (h.of_exec hu).of_same rfl rfl rfl rfl rfl

theorem State.Inv.of_deliver {i : Input} (h : s.Inv) (ht : deliver i s = .next t) : t.Inv := by
  rcases deliver_cases ht with ⟨p, c, -, -, hc⟩ | ⟨w, v, -, rfl⟩ | ⟨k, level, -, rfl⟩ | ⟨-, rfl⟩ | ⟨-, hh⟩
  · exact h.of_exec hc
  · exact h.of_same rfl rfl rfl rfl rfl
  · exact h.driveLimit k level
  · exact h.powerOn
  · exact h.of_handlerStep hh

end StateInv

/-! ### The observation only grows (R45) -/

/-- Each list of the observation begins with what it was before. -/
structure State.ObsGrows (s t : State) : Prop where
  steps     : s.obs.steps <+: t.obs.steps
  tx        : s.obs.tx <+: t.obs.tx
  messages  : s.obs.messages <+: t.obs.messages
  responses : s.obs.responses <+: t.obs.responses

section Grows

variable {s t : State}

theorem State.ObsGrows.of_same (h : t.obs = s.obs) : s.ObsGrows t := by
  constructor <;> rw [h]

theorem OpOutcome.obsGrows {i : Instr} (h : OpOutcome i s t) : s.ObsGrows t := by
  have hk := h.keeps
  obtain ⟨r, hr⟩ := hk.responses
  exact ⟨by rw [hk.steps], by rw [hk.tx], by rw [hk.messages], hr ▸ List.prefix_append _ _⟩

theorem execTick_obsGrows (h : execTick s = .next t) : s.ObsGrows t := by
  rcases execTick_cases h with ⟨-, rfl⟩ | ⟨-, rfl⟩
  · exact .of_same rfl
  · exact ⟨List.prefix_append _ _, List.prefix_rfl, List.prefix_rfl, List.prefix_rfl⟩

theorem SerialOutcome.obsGrows (h : SerialOutcome s t) : s.ObsGrows t := by
  cases h with
  | ignored | stored | resumed | released => exact .of_same rfl
  | overflowed => exact ⟨List.prefix_rfl, List.prefix_append _ _, List.prefix_rfl, List.prefix_rfl⟩
  | replied hu =>
    rcases hu with rfl | rfl <;> exact ⟨List.prefix_rfl, List.prefix_append _ _, List.prefix_rfl, List.prefix_rfl⟩
  | presented hu =>
    rcases hu with rfl | rfl <;> exact ⟨List.prefix_rfl, List.prefix_rfl, List.prefix_append _ _, List.prefix_rfl⟩

theorem exec_obsGrows {i : Instr} (h : exec i s = .next t) : s.ObsGrows t := by
  rcases exec_outcome h with hop | ⟨-, htick⟩ | hserial
  · exact hop.obsGrows
  · exact execTick_obsGrows htick
  · exact hserial.obsGrows

theorem handlerStep_obsGrows (h : handlerStep s = .next t) : s.ObsGrows t := by
  rcases handlerStep_cases h with ⟨-, rfl⟩ | ⟨-, -, rfl⟩ | ⟨-, ty, u, -, hu, rfl⟩
  · exact .of_same rfl
  · exact .of_same rfl
  · obtain ⟨hsteps, htx, hmessages, hresponses⟩ := exec_obsGrows hu
    exact ⟨hsteps, htx, hmessages, hresponses⟩

theorem deliver_obsGrows {i : Input} (hi : i ≠ .powerOn) (h : deliver i s = .next t) : s.ObsGrows t := by
  rcases deliver_cases h with ⟨p, c, -, -, hc⟩ | ⟨w, v, -, rfl⟩ | ⟨k, level, -, rfl⟩ | ⟨hpower, -⟩ | ⟨-, hh⟩
  · exact exec_obsGrows hc
  · exact ⟨List.prefix_rfl, List.prefix_rfl, List.prefix_rfl, List.prefix_append _ _⟩
  · exact .of_same (s.driveLimit_obs k level)
  · exact absurd hpower hi
  · exact handlerStep_obsGrows hh

end Grows

/-! ### CHECK_FINISHED (R132) -/

theorem execCheckFinished_of_finished {x : BitVec 8} {s : State} {a : Axis} (h : s.axes[x.toNat]? = some a)
    (hfin : a.state.finished = true) :
    execCheckFinished x s = .next ((s.setAxis x.toNat { a with state := .ready }).respond true 1) :=
  axisOp_accepts h (by rw [if_pos hfin])

theorem execCheckFinished_of_unfinished {x : BitVec 8} {s : State} {a : Axis} (h : s.axes[x.toNat]? = some a)
    (hfin : a.state.finished = false) : execCheckFinished x s = .next (s.respond true 0) := by
  obtain ⟨hlt, rfl⟩ := List.getElem?_eq_some_iff.mp h
  rw [execCheckFinished, axisOp_accepts h (by rw [if_neg (by simp [hfin])])]
  simp [State.setAxis]

/-! ### The obligations of the state -/

/-- Settles O1: a reset state has every axis, the Registry and the Interpreter at their reset values; the standard build is legal. -/
theorem resetHoldsInvariant : Obligations.ResetHoldsInvariant :=
  ⟨fun _ => State.Inv.resetOf, State.Inv.resetOf (by decide)⟩

theorem Message.zero_fields : ∀ j : Fin 4, Message.zero.fields[j] = 0 := by decide

/-- Settles O2: reset gives each axis built its record of R47, and every other field its row. -/
theorem resetGivesEveryFieldItsValue : Obligations.ResetGivesEveryFieldItsValue := by
  rintro b _ rfl
  refine ⟨rfl, rfl, List.length_map _, fun i ab hab => ?_, rfl, rfl, rfl, rfl, rfl, Message.zero_fields, rfl, rfl⟩
  have haxis : (State.resetOf b).axes[i]? = some (Axis.resetOf ab false) := by simp [State.resetOf, hab]
  exact ⟨_, haxis, rfl, rfl, rfl, rfl, rfl, rfl, rfl, rfl, rfl, rfl, rfl, rfl, rfl, rfl, rfl⟩

/-- Settles O41: a step does nothing or delivers one input, and every input keeps the invariant. -/
theorem stepKeepsInvariant : Obligations.StepKeepsInvariant := by
  intro s t h hstep
  rcases step_cases hstep with ⟨-, rfl⟩ | ⟨i, rest, -, hd⟩
  · exact h
  · have hrest : State.Inv { s with inbox := rest } := h.of_same rfl rfl rfl rfl rfl
    exact hrest.of_deliver hd

/-- Settles O17: the first CHECK_FINISHED leaves the axis Ready, where the second finds no latch. -/
theorem completionIsSeenOnce : Obligations.CompletionIsSeenOnce := by
  intro s x a ha hs
  have hfin : a.state.finished = true := by rcases hs with h | h <;> rw [h] <;> rfl
  have hlt := (List.getElem?_eq_some_iff.mp ha).1
  have hready : ((s.setAxis x.toNat { a with state := .ready }).respond true 1).axes[x.toNat]? =
      some { a with state := .ready } := by simp [hlt]
  exact ⟨_, _, execCheckFinished_of_finished ha hfin, execCheckFinished_of_unfinished hready rfl, by simp, rfl⟩

/-- Settles O25: each outcome of an OP keeps what is not its target. -/
theorem opsTouchOnlyTheirTargets : Obligations.OpsTouchOnlyTheirTargets := by
  intro i s t hi h
  have hop := exec_op_outcome hi h
  obtain ⟨hparams, hparser, hhandler, hinbox, htx, hmessages, hsteps, hresponses, hcount⟩ := hop.keeps
  refine ⟨hparams, hparser, hhandler, hinbox, htx, hmessages, hsteps, hresponses, fun hne => ?_, fun hne => ?_,
    fun _ => hop.read_of_ne, hcount, fun j a b ha hb => ?_⟩
  · rcases hop.registry_cases with hsame | ⟨f, hf, -⟩
    · exact absurd hsame hne
    · exact ⟨f, hf⟩
  · rcases hop.store_cases with hsame | ⟨off, hoff, -⟩
    · exact absurd hsame hne
    · exact ⟨off, hoff⟩
  · obtain ⟨hchange, htarget⟩ := hop.axis_change ha hb
    have hf := hchange.frame
    exact ⟨hf.build, hf.limit, hf.step, hf.maxVelocity, hf.acceleration, hf.stopMode, hf.home, hf.enable, hf.position,
      hf.heading, hf.profile, hf.state, htarget.resolve_left⟩

/-- Settles O40: TICK replaces each axis by its own tick, whose frame is known, and appends step events. -/
theorem tickTouchesOnlyMotion : Obligations.TickTouchesOnlyMotion := by
  intro s t h
  rcases execTick_cases h with ⟨-, rfl⟩ | ⟨-, rfl⟩
  · refine ⟨⟨rfl, rfl, rfl, rfl, rfl, rfl, rfl, rfl⟩, rfl, rfl, fun i a b ha hb => ?_⟩
    obtain rfl := Option.some.inj (ha.symm.trans hb)
    obtain ⟨hfix, hrun, hrise, henable, hdir⟩ := Axis.TickFrame.refl a
    exact ⟨hfix, hrun, hrise, henable, hdir⟩
  · refine ⟨⟨rfl, rfl, rfl, rfl, rfl, rfl, rfl, rfl⟩, rfl, length_tickAxes _ _, fun i a b ha hb => ?_⟩
    obtain rfl : (a.tick s.params.homeTickBudget).1 = b := by simpa [ha] using hb
    obtain ⟨hfix, hrun, hrise, henable, hdir⟩ := a.tick_frame s.params.homeTickBudget
    exact ⟨hfix, hrun, hrise, henable, hdir⟩

/-- Settles O46: an OP writes only axes that are not busy, and a line, a byte or a handler event writes none. -/
theorem onlyTicksChangeABusyAxis : Obligations.OnlyTicksChangeABusyAxis := by
  intro i s t h htick j a ha hs
  rcases exec_outcome h with hop | ⟨hi, -⟩ | hserial
  · have hlt : j < t.axes.length := lt_of_lt_of_eq (List.getElem?_eq_some_iff.mp ha).1 hop.keeps.count.symm
    have hb : t.axes[j]? = some t.axes[j] := List.getElem?_eq_getElem hlt
    rw [hb, (hop.axis_change ha hb).1.eq_of_busy (RunState.busy_iff.mpr hs)]
  · exact absurd hi htick
  · rw [hserial.keeps.axes, ha]

/-- Settles O54: every input but a power-on appends to the observation, and the input a step takes is a pending one. -/
theorem observationOnlyGrows : Obligations.ObservationOnlyGrows := by
  intro s t hpower h
  have hgrows : s.ObsGrows t := by
    rcases step_cases h with ⟨-, rfl⟩ | ⟨i, rest, htake, hd⟩
    · exact .of_same rfl
    · obtain ⟨pre, post, hinbox, -⟩ := takeInput_some htake
      have hi : i ≠ .powerOn := fun hi => hpower (by rw [hinbox, ← hi]; simp)
      obtain ⟨hsteps, htx, hmessages, hresponses⟩ := deliver_obsGrows hi hd
      exact ⟨hsteps, htx, hmessages, hresponses⟩
  exact ⟨hgrows.steps, hgrows.tx, hgrows.messages, hgrows.responses⟩

end Sys2Proof.Machine

/-! The Message register (20_memory.md R62): while a Message is with the handler, nothing but HANDLER_DONE and a power-on writes the
Interpreter. -/

namespace Sys2Proof.Machine

/-- The Interpreter, and with it the Message register and the line buffer, and the Messages presented are as before (R62). -/
structure State.SameMessage (s t : State) : Prop where
  parser   : t.parser = s.parser
  messages : t.obs.messages = s.obs.messages

section SameMessage

variable {s t : State}

theorem State.SameMessage.refl (s : State) : s.SameMessage s := ⟨rfl, rfl⟩

theorem OpOutcome.sameMessage {i : Instr} (h : OpOutcome i s t) : s.SameMessage t :=
  ⟨h.keeps.parser, h.keeps.messages⟩

theorem execTick_sameMessage (h : execTick s = .next t) : s.SameMessage t := by
  rcases execTick_cases h with ⟨-, rfl⟩ | ⟨-, rfl⟩
  · exact .refl _
  · exact ⟨rfl, rfl⟩

theorem execReply_sameMessage {m : Marker} {text : List Byte} (h : execReply m text s = .next t) : s.SameMessage t := by
  unfold execReply at h
  split at h <;> cases h
  · exact ⟨rfl, rfl⟩
  · exact .refl s

/-- A line waits at its source while a Message is with the handler (R210, R62). -/
theorem whenHandlerIdle_sameMessage {u : State} (hbusy : s.parser.handlerBusy = true)
    (h : whenHandlerIdle s u = .next t) : s.SameMessage t := by
  obtain rfl : s = t := by simpa [whenHandlerIdle_busy hbusy] using h
  exact .refl s

/-- No byte is taken while a Message is with the handler (R210, log 4). -/
theorem execRx_sameMessage {b : Byte} (hbusy : s.parser.handlerBusy = true) (h : execRx b s = .next t) :
    s.SameMessage t := by
  obtain rfl : s = t := by simpa [execRx, hbusy] using h
  exact .refl s

/-- HANDLER_DONE takes the Message from the handler (R263). -/
theorem execHandlerDone_releases (h : execHandlerDone s = .next t) : t.parser.handlerBusy = false := by
  unfold execHandlerDone at h
  split at h <;> cases h
  · rfl
  · next hidle => simpa using hidle

/-- No instruction changes the Message the handler keeps: only HANDLER_DONE writes the Interpreter then, and it ends the hand-off
(R62, R262, R263). -/
theorem exec_sameMessage {i : Instr} (hs : s.parser.handlerBusy = true) (ht : t.parser.handlerBusy = true)
    (h : exec i s = .next t) : s.SameMessage t := by
  cases i with
  | lineGo | lineSet | lineGet | lineHome | lineState | lineAlive => exact whenHandlerIdle_sameMessage hs h
  | rx => exact execRx_sameMessage hs h
  | tick => exact execTick_sameMessage h
  | reply => exact execReply_sameMessage h
  | handlerDone => simp [execHandlerDone_releases h] at ht
  | moveAbs | moveRel | home | setPos | axisReset | getPos | busy | checkFinished | getState | getMaxvel | setMaxvel
  | getAccel | setAccel | getStopmode | setStopmode | getHomedir | getCanhome | setup | getAxis | saveSettings
  | restoreSettings => exact (exec_op_outcome rfl h).sameMessage

theorem handlerStep_sameMessage (hs : s.parser.handlerBusy = true) (ht : t.parser.handlerBusy = true)
    (h : handlerStep s = .next t) : s.SameMessage t := by
  rcases handlerStep_cases h with ⟨-, rfl⟩ | ⟨-, -, rfl⟩ | ⟨-, ty, u, -, hu, rfl⟩
  · exact ⟨rfl, rfl⟩
  · exact .refl _
  · obtain ⟨hparser, hmessages⟩ := exec_sameMessage (t := u) hs ht hu
    exact ⟨hparser, hmessages⟩

/-- A power-on is the one input other than an instruction that writes the Interpreter, and no Message is with the handler after it
(R330). -/
theorem deliver_sameMessage {i : Input} (hs : s.parser.handlerBusy = true) (ht : t.parser.handlerBusy = true)
    (h : deliver i s = .next t) : s.SameMessage t := by
  rcases deliver_cases h with ⟨p, c, -, -, hc⟩ | ⟨w, v, -, rfl⟩ | ⟨k, level, -, rfl⟩ | ⟨-, rfl⟩ | ⟨-, hh⟩
  · exact exec_sameMessage hs ht hc
  · exact ⟨rfl, rfl⟩
  · exact ⟨s.driveLimit_parser k level, by rw [s.driveLimit_obs k level]⟩
  · simp [Interpreter.reset] at ht
  · exact handlerStep_sameMessage hs ht hh

end SameMessage

/-- Settles O31: whatever input the step delivers, either the Interpreter and the Messages are as before or the hand-off ends. -/
theorem messageIsStableWhileHandled : Obligations.MessageIsStableWhileHandled := by
  intro s t h hs ht
  rcases step_cases h with ⟨-, rfl⟩ | ⟨i, rest, -, hd⟩
  · exact ⟨rfl, rfl⟩
  · obtain ⟨hparser, hmessages⟩ := deliver_sameMessage (s := { s with inbox := rest }) hs ht hd
    exact ⟨hparser, hmessages⟩

end Sys2Proof.Machine

/-! The encoding (30_encoding.md): an encoding decodes to its instruction, what integer tokens and spaced lines are read as, and what an
OP request answers. -/

namespace Sys2Proof

/-! ### Op words -/

/-- An op word whose opcode is in no row of the opcode map is rejected (R73). -/
theorem decodeOp_reserved {w : OpWord} (h : opcodeField w ∉ opTable.map fun row => row.1) (v : Word) :
    decodeOp w v = .error (.reservedOpcode (opcodeField w)) := by
  have hnone : opTable.find? (fun row => row.1 == opcodeField w) = none := by
    rw [List.find?_eq_none]
    intro row hrow heq
    exact h (List.mem_map.mpr ⟨row, hrow, eq_of_beq heq⟩)
  rw [decodeOp, hnone]

/-- An op encoding decodes to what the row of its opcode makes of the axis field and the operand (R70, R72). -/
theorem decode_opEncoding (n : Nat) {op axis : BitVec 8} {v : Word} {i : Instr}
    (h : (opTable.find? fun row => row.1 == op).map (fun row => row.2 axis v) = some i) :
    decode n (opEncoding op axis v) = .ok i := by
  obtain ⟨row, hrow, rfl⟩ := Option.map_eq_some_iff.mp h
  rw [opEncoding, decode, decodePort, decodeOp_append, hrow]

/-! ### Line encodings -/

/-- The walk reads an int32 written in decimal (R78, R235). -/
theorem walkValues_decInt (n : Nat) (kinds : List ValueKind) (w : Word) (toks : List (List Byte)) (done : List Word) :
    walkValues n (.integer :: kinds) (decInt w :: toks) done = walkValues n kinds toks (done ++ [w]) := by
  rw [walkValues, parseInteger_decInt]

/-- The walk reads a parameter name after a valid axis (R79, R236). -/
theorem walkValues_keyword {n : Nat} {axis : Word} (h : validAxisField n axis = true) (kinds : List ValueKind) (p : Param)
    (toks : List (List Byte)) (done : List Word) :
    walkValues n (.parameterName :: kinds) (p.keyword :: toks) (axis :: done) =
      walkValues n kinds toks (axis :: done ++ [p.enum]) := by
  simp only [walkValues, lookupParam_keyword, h, if_true]

/-- A line encoding is split into its tokens and walked by the grammar of its type (R77, R232). -/
theorem decode_lineEncoding {n : Nat} {t : LineType} {values : List (List Byte)} {kinds : List ValueKind} {fields : List Word}
    (hentry : lookupType t.keyword = some { type := t, keyword := t.keyword, kinds := kinds })
    (hvalues : ∀ u ∈ values, u ≠ [] ∧ 0x20#8 ∉ u) (hwalk : walkValues n kinds values [] = .ok fields) :
    decode n (lineEncoding t values) = .ok (lineInstr t fields) := by
  have htokens : tokenize (joinTokens (t.keyword :: values)) = t.keyword :: values :=
    tokenize_joinTokens _ (List.forall_mem_cons.mpr ⟨t.keyword_token, hvalues⟩)
  simp only [lineEncoding, decode, decodeLine, parseLine, htokens, hentry, hwalk]

/-- GO: two integers (R241). -/
theorem decode_encode_lineGo (n : Nat) (axis target : Word) :
    decode n (encode (.lineGo axis target)) = .ok (.lineGo axis target) := by
  refine decode_lineEncoding (t := .go) (fields := [axis, target]) rfl (by simp [decInt_token]) ?_
  rw [walkValues_decInt, walkValues_decInt]
  rfl

/-- SET: an axis that is built, a parameter and an integer (R236, R242). -/
theorem decode_encode_lineSet {n : Nat} {axis : Word} (h : validAxisField n axis = true) (p : Param) (v : Word) :
    decode n (encode (.lineSet axis p v)) = .ok (.lineSet axis p v) := by
  have hdecode : decode n (encode (.lineSet axis p v)) = .ok (lineInstr .set [axis, p.enum, v]) := by
    refine decode_lineEncoding rfl (by simp [decInt_token, p.keyword_token]) ?_
    rw [walkValues_decInt, List.nil_append, walkValues_keyword h, walkValues_decInt]
    rfl
  simpa [lineInstr, fieldAt, p.ofEnum_enum] using hdecode

/-- GET: an axis that is built and a parameter (R236, R243). -/
theorem decode_encode_lineGet {n : Nat} {axis : Word} (h : validAxisField n axis = true) (p : Param) :
    decode n (encode (.lineGet axis p)) = .ok (.lineGet axis p) := by
  have hdecode : decode n (encode (.lineGet axis p)) = .ok (lineInstr .get [axis, p.enum]) := by
    refine decode_lineEncoding rfl (by simp [decInt_token, p.keyword_token]) ?_
    rw [walkValues_decInt, List.nil_append, walkValues_keyword h]
    rfl
  simpa [lineInstr, fieldAt, p.ofEnum_enum] using hdecode

/-- A line of one integer, as HOME and STATE are (R244, R245). -/
theorem decode_lineEncoding_decInt (n : Nat) {t : LineType}
    (hentry : lookupType t.keyword = some { type := t, keyword := t.keyword, kinds := [.integer] }) (axis : Word) :
    decode n (lineEncoding t [decInt axis]) = .ok (lineInstr t [axis]) := by
  refine decode_lineEncoding hentry (by simp [decInt_token]) ?_
  rw [walkValues_decInt]
  rfl

/-- Every well-formed instruction is read back: an OP by its opcode, a line by its tokens, an event as itself (R70, R75, R77). -/
theorem decode_encode {n : Nat} {i : Instr} (h : i.wellFormed n = true) : decode n (encode i) = .ok i := by
  cases i with
  | moveAbs | moveRel | home | setPos | axisReset | getPos | busy | checkFinished | getState | getMaxvel | setMaxvel
  | getAccel | setAccel | getStopmode | setStopmode | getHomedir | getCanhome | setup | getAxis | saveSettings
  | restoreSettings => exact decode_opEncoding n rfl
  | lineGo => exact decode_encode_lineGo n _ _
  | lineSet => exact decode_encode_lineSet h _ _
  | lineGet => exact decode_encode_lineGet h _
  | lineHome axis => exact decode_lineEncoding_decInt n (t := .home) rfl axis
  | lineState axis => exact decode_lineEncoding_decInt n (t := .state) rfl axis
  | lineAlive => exact decode_lineEncoding (t := .alive) (fields := []) rfl (by simp) rfl
  | reply m text => exact if_pos h
  | tick | rx | handlerDone => rfl

/-! ### Integer tokens -/

/-- The digit bytes are 0x30 to 0x39 (R78). -/
theorem digitByte_iff {b : Byte} : 0x30#8 ≤ b ∧ b ≤ 0x39#8 ↔ ∃ d : Fin 10, b = BitVec.ofNat 8 (0x30 + d.val) := by
  constructor
  · intro h
    refine ⟨⟨b.toNat - 48, by bv_omega⟩, ?_⟩
    simp only
    bv_omega
  · rintro ⟨d, rfl⟩
    revert d
    decide

theorem digitsValue_decimalBytes (ds : List (Fin 10)) (v : Nat) :
    digitsValue v (decimalBytes ds) = some (ds.foldl (fun v d => 10 * v + d.val) v) := by
  induction ds generalizing v with
  | nil => rfl
  | cons d ds ih =>
    calc digitsValue v (decimalBytes (d :: ds)) = digitsValue v ([BitVec.ofNat 8 (48 + d.val)] ++ decimalBytes ds) := rfl
      _ = digitsValue (10 * v + d.val) (decimalBytes ds) := by
        rw [digitsValue_append, digitsValue_digit v d.val d.isLt, Option.bind_some]
      _ = some ((d :: ds).foldl (fun v d => 10 * v + d.val) v) := ih _

/-- Only a run of digits has a value (R78). -/
theorem eq_decimalBytes_of_digitsValue {bs : List Byte} {v n : Nat} (h : digitsValue v bs = some n) :
    ∃ ds, bs = decimalBytes ds := by
  induction bs generalizing v with
  | nil => exact ⟨[], rfl⟩
  | cons b bs ih =>
    rw [digitsValue] at h
    split at h
    · next hb =>
      obtain ⟨d, rfl⟩ := digitByte_iff.mp hb
      obtain ⟨ds, rfl⟩ := ih h
      exact ⟨d :: ds, rfl⟩
    · cases h

/-- Exactly the runs of digits have a value, their decimal value (R78). -/
theorem digitsValue_eq_some {bs : List Byte} {n : Nat} :
    digitsValue 0 bs = some n ↔ ∃ ds, bs = decimalBytes ds ∧ decimalValue ds = n := by
  constructor
  · intro h
    obtain ⟨ds, rfl⟩ := eq_decimalBytes_of_digitsValue h
    exact ⟨ds, rfl, Option.some.inj ((digitsValue_decimalBytes ds 0).symm.trans h)⟩
  · rintro ⟨ds, rfl, rfl⟩
    exact digitsValue_decimalBytes ds 0

/-- A value is narrowed to the int32 that it is, if it is one (R78). -/
theorem narrowInt32_eq_some {z : Int} {v : Word} : narrowInt32 z = some v ↔ v.toInt = z := by
  constructor
  · intro h
    unfold narrowInt32 at h
    split at h
    · next hz =>
      obtain rfl := Option.some.inj h
      rw [BitVec.toInt_ofInt_eq_self (by norm_num) (by norm_num; exact hz.1) (by norm_num; omega)]
    · cases h
  · rintro rfl
    exact narrowInt32_toInt v

/-- The part of an integer token after its sign: at least one digit, and a value that is an int32; `signed` applies the sign (R78). -/
theorem digits_narrow_eq_some (signed : Nat → Int) {bs : List Byte} {v : Word} :
    (if bs = [] then none else (digitsValue 0 bs).bind fun n => narrowInt32 (signed n)) = some v ↔
      ∃ ds : List (Fin 10), ds ≠ [] ∧ bs = decimalBytes ds ∧ v.toInt = signed (decimalValue ds) := by
  split
  · next hbs => simp [hbs, decimalBytes]
  · next hbs =>
    simp only [Option.bind_eq_some_iff, digitsValue_eq_some, narrowInt32_eq_some]
    constructor
    · rintro ⟨n, ⟨ds, hds, rfl⟩, hv⟩
      exact ⟨ds, by rintro rfl; exact hbs hds, hds, hv⟩
    · rintro ⟨ds, -, hds, hv⟩
      exact ⟨_, ⟨ds, hds, rfl⟩, hv⟩

theorem decimalBytes_head_ne_minus (ds : List (Fin 10)) : (decimalBytes ds).head? ≠ some 0x2D#8 := by
  cases ds with
  | nil => simp [decimalBytes]
  | cons d ds =>
    intro h
    exact absurd (digitByte_iff.mpr ⟨d, (Option.some.inj h).symm⟩) (by decide)

/-! ### Tokens and spaces -/

/-- Spaces before a token are skipped (R77, R233). -/
theorem tokenizeFrom_spaces (n : Nat) (rest : List Byte) :
    tokenizeFrom [] (List.replicate n 0x20#8 ++ rest) = tokenizeFrom [] rest := by
  induction n with
  | zero => rfl
  | succ n ih => simpa [List.replicate_succ, tokenizeFrom] using ih

theorem tokenize_spaces (n : Nat) : tokenize (List.replicate n 0x20#8) = [] := by
  simpa [tokenize, tokenizeFrom] using tokenizeFrom_spaces n []

/-- A token ends at the spaces after it, or at the end of the line (R233). -/
theorem tokenizeFrom_token_spaces {tok : List Byte} (htok : tok ≠ [] ∧ 0x20#8 ∉ tok) (n : Nat) :
    tokenizeFrom [] (tok ++ List.replicate n 0x20#8) = [tok] := by
  obtain ⟨hne, hs⟩ := htok
  cases n with
  | zero => simpa using tokenizeFrom_token tok [] hs (by simpa using hne)
  | succ n =>
    rw [List.replicate_succ, tokenizeFrom_append_space tok [] _ hs (by simpa using hne)]
    exact congrArg (tok :: ·) (tokenize_spaces n)

/-- A token, the spaces after it, and the rest of the line (R77, R233). -/
theorem tokenizeFrom_token_spaces_rest {tok : List Byte} (htok : tok ≠ [] ∧ 0x20#8 ∉ tok) (n : Nat) (rest : List Byte) :
    tokenizeFrom [] (tok ++ (List.replicate (n + 1) 0x20#8 ++ rest)) = tok :: tokenizeFrom [] rest := by
  obtain ⟨hne, hs⟩ := htok
  rw [List.replicate_succ, List.cons_append, tokenizeFrom_append_space tok [] _ hs (by simpa using hne),
    tokenizeFrom_spaces, List.nil_append]

/-- Tokens with one or more spaces between them, and any number after the last, are found again (R77, R233). -/
theorem tokenizeFrom_spaced {first : List Byte} {more : List (Nat × List Byte)} (hfirst : first ≠ [] ∧ 0x20#8 ∉ first)
    (hmore : ∀ p ∈ more, p.2 ≠ [] ∧ 0x20#8 ∉ p.2) (trail : Nat) :
    tokenizeFrom [] (first ++ ((more.flatMap fun p => List.replicate (p.1 + 1) 0x20#8 ++ p.2) ++
      List.replicate trail 0x20#8)) = first :: more.map fun p => p.2 := by
  induction more generalizing first with
  | nil => exact tokenizeFrom_token_spaces hfirst trail
  | cons p more ih =>
    obtain ⟨hp, hmore⟩ := List.forall_mem_cons.mp hmore
    rw [List.flatMap_cons, List.append_assoc, List.append_assoc, tokenizeFrom_token_spaces_rest hfirst, ih hp hmore,
      List.map_cons]

end Sys2Proof

namespace Sys2Proof.Machine

/-! ### The answer to an OP -/

/-- An OP is an axis operation or one of the three registry operations without an axis (R72). -/
theorem isOp_cases {i : Instr} (h : isOp i = true) :
    (∃ x, opAxis i = some x) ∨ (∃ f, i = .setup f) ∨ (∃ off, i = .saveSettings off) ∨ ∃ off, i = .restoreSettings off := by
  cases i <;> simp [isOp, opAxis] at h ⊢

/-- An OP always answers (R71, R301). -/
theorem exec_op_next {i : Instr} (hi : isOp i = true) (s : State) : ∃ t, exec i s = .next t := by
  rcases isOp_cases hi with ⟨x, hx⟩ | ⟨f, rfl⟩ | ⟨off, rfl⟩ | ⟨off, rfl⟩
  · obtain ⟨f, hf⟩ := exec_eq_axisOp hx
    rw [hf s]
    exact axisOp_next x _ s
  · simp only [exec, execSetup]
    split_ifs <;> exact ⟨_, rfl⟩
  · simp only [exec, execSaveSettings]
    split_ifs <;> exact ⟨_, rfl⟩
  · simp only [exec, execRestoreSettings]
    split_ifs <;> exact ⟨_, rfl⟩

/-- The response of an OP: one, and a failing one only where nothing else changed (R71). -/
theorem OpOutcome.answer {i : Instr} {s t : State} (h : OpOutcome i s t) :
    ∃ r : Response, t.obs.responses = s.obs.responses ++ [r] ∧ (r.ok = false → r.result = 0 ∧ t = s.respond false 0) := by
  cases h with
  | failed => exact ⟨_, rfl, fun _ => ⟨rfl, rfl⟩⟩
  | axis | setup | save | restore => exact ⟨_, rfl, nofun⟩

/-! ### The obligations -/

/-- Settles O5, form by form: OP, line and event. -/
theorem decodeEncodeAgree : Obligations.DecodeEncodeAgree := fun _ _ => decode_encode

/-- Settles O24: each outcome of an OP appends one response, and only the failure's has ok = 0. -/
theorem everyOpAnswersOnceAndFailureChangesNothing : Obligations.EveryOpAnswersOnceAndFailureChangesNothing := by
  intro i s hi
  obtain ⟨t, ht⟩ := exec_op_next hi s
  obtain ⟨r, hr⟩ := (exec_op_outcome hi ht).answer
  exact ⟨t, r, ht, hr⟩

/-- Settles O34: the token is split at its sign, and the digits after it have exactly their decimal value. -/
theorem integerTokensAreDecimalInt32 : Obligations.IntegerTokensAreDecimalInt32 := by
  intro tok v
  constructor
  · intro h
    by_cases hminus : tok.head? = some 0x2D#8
    · obtain ⟨rest, rfl⟩ := List.head?_eq_some_iff.mp hminus
      rw [parseInteger_minus, digits_narrow_eq_some fun n => -(n : Int)] at h
      obtain ⟨ds, hne, rfl, hv⟩ := h
      exact ⟨true, ds, hne, rfl, hv⟩
    · rw [parseInteger_plain hminus, digits_narrow_eq_some fun n => (n : Int)] at h
      obtain ⟨ds, hne, rfl, hv⟩ := h
      exact ⟨false, ds, hne, rfl, hv⟩
  · rintro ⟨negative, ds, hne, rfl, hv⟩
    cases negative with
    | true =>
      exact (parseInteger_minus _).trans ((digits_narrow_eq_some fun n => -(n : Int)).mpr ⟨ds, hne, rfl, hv⟩)
    | false =>
      exact (parseInteger_plain (decimalBytes_head_ne_minus ds)).trans
        ((digits_narrow_eq_some fun n => (n : Int)).mpr ⟨ds, hne, rfl, hv⟩)

/-- Settles O35, by induction on the tokens after the first. -/
theorem tokenizerFindsTheTokens : Obligations.TokenizerFindsTheTokens := by
  refine ⟨tokenize_spaces, fun lead trail first more hfirst hmore => ?_⟩
  rw [List.append_assoc, List.append_assoc, tokenize, tokenizeFrom_spaces]
  exact tokenizeFrom_spaced hfirst hmore trail

/-- Settles O6: each encoding is fixed, and the decoder evaluates it. -/
theorem writtenWordsDecode : Obligations.WrittenWordsDecode := by
  unfold Obligations.WrittenWordsDecode
  decide

/-- Settles O7: the list holds the opcodes of the map, and an op word of another opcode is rejected with no effect. -/
theorem reservedOpWordsFail : Obligations.ReservedOpWordsFail := by
  intro s w v hw
  have hdecode : decodePort (.op w v) = .error (.reservedOpcode (opcodeField w)) := decodeOp_reserved hw v
  rw [deliver, deliverPort, hdecode]
  rfl

/-- Settles O23: an OP with an axis field is an axis operation, and no axis has this index. -/
theorem axisOutOfRangeFails : Obligations.AxisOutOfRangeFails := by
  intro s i axis hi hrange
  obtain ⟨f, hf⟩ := exec_eq_axisOp hi
  rw [hf s]
  exact axisOp_absent (List.getElem?_eq_none hrange)

end Sys2Proof.Machine

/-! Axis motion (40_axis_motion.md): what an accepted axis operation writes, the start of a move, the duration of its profile, and the arcs
of the transition table. -/

namespace Sys2Proof.Machine

/-! ### One write to the addressed axis -/

/-- What a successful axis operation writes, the axis `b` at index i and the answer `v`, and what it leaves (R71, R74). -/
structure State.AxisWritten (s t : State) (i : Nat) (b : Axis) (v : Word) : Prop where
  axis         : t.axes[i]? = some b
  answer       : s.Answered t true v
  others       : s.SameAxesBut i t
  surroundings : s.SameSurroundings t

section AxisOperation

variable {axis : BitVec 8} {f : Axis → Option (Axis × Word)} {s t : State} {a b : Axis} {v : Word}

theorem axisOp_writes (ha : s.axes[axis.toNat]? = some a) (hf : f a = some (b, v)) :
    ∃ t, axisOp axis f s = .next t ∧ s.AxisWritten t axis.toNat b v := by
  have hlt := (List.getElem?_eq_some_iff.mp ha).1
  refine ⟨_, axisOp_accepts ha hf, ?_⟩
  constructor
  case axis => simp [hlt]
  case answer => exact ⟨rfl, rfl⟩
  case others => exact ⟨List.length_set, fun j hj => List.getElem?_set_ne hj.symm⟩
  case surroundings => exact ⟨rfl, rfl, rfl, rfl, rfl, rfl, rfl, rfl⟩

/-- An operation that accepts nothing of the addressed axis fails with no effect. -/
theorem axisOp_fails (ha : s.axes[axis.toNat]? = some a) (hf : ∀ b v, f a ≠ some (b, v)) :
    axisOp axis f s = .next (s.respond false 0) :=
  axisOp_refuses ha (Option.eq_none_iff_forall_ne_some.mpr fun p => hf p.1 p.2)

/-- An OP has one answer (R71). -/
theorem State.Answered.unique {ok ok' : Bool} {r r' : Word} (h : s.Answered t ok r) (h' : s.Answered t ok' r') :
    ok = ok' ∧ r = r' := by
  simpa using h.responses.symm.trans h'.responses

theorem State.answered_respond (s : State) (ok : Bool) (r : Word) : s.Answered (s.respond ok r) ok r := ⟨rfl, rfl⟩

end AxisOperation

/-! ### The start of a move -/

section StartMove

variable {axis : BitVec 8} {f : Axis → Option (Axis × Word)} {s t : State} {a b : Axis} {target : Int}

/-- A move starts exactly where its preconditions hold, and commits its distance and its duration (R100, R103, R104). -/
theorem Axis.startMove_eq_some_iff_mayMove {v : Word} :
    a.startMove s.registry target = some (b, v) ↔
      s.MayMove a target ∧ b = a.commit (target - a.position.toInt) (a.stepsTo target) (s.durationTo a target) ∧
        v = BitVec.ofNat 32 (s.durationTo a target) := by
  rw [Axis.startMove_eq_some]
  constructor
  · rintro ⟨hready, hconf, hne, hV, hA, hfits, hb, hv⟩
    exact ⟨⟨hready, hconf, hne, hV, hA, hfits⟩, hb, hv⟩
  · rintro ⟨⟨hready, hconf, hne, hV, hA, hfits⟩, hb, hv⟩
    exact ⟨hready, hconf, hne, hV, hA, hfits, hb, hv⟩

/-- The distance and the duration of a move that may start are narrowed to 32 bits without loss (R102, R103). -/
theorem State.MayMove.moveStarted {i : Nat} (h : s.MayMove a target)
    (hw : s.AxisWritten t i (a.commit (target - a.position.toInt) (a.stepsTo target) (s.durationTo a target))
      (BitVec.ofNat 32 (s.durationTo a target))) :
    s.MoveStarted t i a (a.commit (target - a.position.toInt) (a.stepsTo target) (s.durationTo a target)) target := by
  have hduration := h.fits
  have hdistance : a.stepsTo target ≤ s.durationTo a target := le_max_right _ _
  have hsign : 0 < target - a.position.toInt ↔ a.position.toInt < target := by omega
  constructor
  case axis => exact hw.axis
  case answer => exact hw.answer
  case others => exact hw.others
  case surroundings => exact hw.surroundings
  case direction => simp only [Axis.commit_direction, hsign]
  case dir =>
    rw [Axis.commit_dir]
    by_cases hup : a.position.toInt < target <;> simp [hup, dirLevel]
  case runLength => exact Nat.mod_eq_of_lt (by omega)
  case riseLength => exact Nat.mod_eq_of_lt (by omega)
  case fixtures => exact ⟨rfl, rfl, rfl⟩
  all_goals rfl

/-- An axis operation that comes to StartMove starts the move where it may (R100, R105, R106). -/
theorem axisOp_starts_move (ha : s.axes[axis.toNat]? = some a) (hf : f a = a.startMove s.registry target)
    (h : s.MayMove a target) :
    ∃ (t : State) (b : Axis), axisOp axis f s = .next t ∧ s.MoveStarted t axis.toNat a b target := by
  have hstart := Axis.startMove_eq_some_iff_mayMove.mpr ⟨h, rfl, rfl⟩
  obtain ⟨t, ht, hw⟩ := axisOp_writes ha (hf.trans hstart)
  exact ⟨t, _, ht, h.moveStarted hw⟩

theorem execMoveAbs_of_mayMove {v : Word} (ha : s.axes[axis.toNat]? = some a) (h : s.MayMove a v.toInt) :
    ∃ (t : State) (b : Axis), execMoveAbs axis v s = .next t ∧ s.MoveStarted t axis.toNat a b v.toInt :=
  axisOp_starts_move ha rfl h

theorem execMoveAbs_of_not_mayMove {v : Word} (ha : s.axes[axis.toNat]? = some a) (h : ¬ s.MayMove a v.toInt) :
    execMoveAbs axis v s = .next (s.respond false 0) :=
  axisOp_fails ha fun _ _ hstart => h (Axis.startMove_eq_some_iff_mayMove.mp hstart).1

theorem execMoveRel_of_mayMove {v : Word} (ha : s.axes[axis.toNat]? = some a)
    (hfits : FitsInt32 (a.position.toInt + v.toInt)) (h : s.MayMove a (a.position.toInt + v.toInt)) :
    ∃ (t : State) (b : Axis), execMoveRel axis v s = .next t ∧
      s.MoveStarted t axis.toNat a b (a.position.toInt + v.toInt) :=
  axisOp_starts_move ha (if_pos hfits) h

theorem execMoveRel_of_not_mayMove {v : Word} (ha : s.axes[axis.toNat]? = some a)
    (h : ¬ (FitsInt32 (a.position.toInt + v.toInt) ∧ s.MayMove a (a.position.toInt + v.toInt))) :
    execMoveRel axis v s = .next (s.respond false 0) := by
  refine axisOp_fails ha fun _ _ hrel => h ?_
  obtain ⟨hfits, hstart⟩ := Axis.startRelative_eq_some.mp hrel
  exact ⟨hfits, (Axis.startMove_eq_some_iff_mayMove.mp hstart).1⟩

end StartMove

/-! ### The duration of the profile (R101, R102) -/

section Profile

variable {D V A F : Nat}

theorem ceilDiv_isLeast (a : Nat) {b : Nat} (hb : 0 < b) : IsLeast { n | a ≤ n * b } (ceilDiv a b) :=
  ⟨le_ceilDiv_mul a b hb, fun n hn => (ceilDiv_le_iff a b n hb).mpr hn⟩

/-- The trapezoid: the least n with n/F >= D/V + V/A (R102). -/
theorem profileTicks_isLeast_trapezoid (hV : 0 < V) (hA : 0 < A) (h : V * V ≤ A * D) :
    IsLeast { n | F * (A * D + V * V) ≤ n * (A * V) } (profileTicks D V A F) := by
  rw [profileTicks, if_pos h]
  exact ceilDiv_isLeast _ (Nat.mul_pos hA hV)

/-- Where the shapes meet, the trapezoid's bound is `2 * F * V <= n * A` times V and the triangle's its square over A (R101). -/
theorem trapezoid_iff_triangle_at_boundary (hV : 0 < V) (hA : 0 < A) (h : V * V = A * D) (n : Nat) :
    F * (A * D + V * V) ≤ n * (A * V) ↔ 4 * F * F * D ≤ n * n * A :=
  calc F * (A * D + V * V) ≤ n * (A * V) ↔ V * (2 * F * V) ≤ V * (n * A) := by
        rw [← h]; ring_nf
    _ ↔ 2 * F * V ≤ n * A := Nat.mul_le_mul_left_iff hV
    _ ↔ (2 * F * V) * (2 * F * V) ≤ (n * A) * (n * A) := Nat.mul_self_le_mul_self_iff.symm
    _ ↔ A * (4 * F * F * D) ≤ A * (n * n * A) := by
        rw [show (2 * F * V) * (2 * F * V) = 4 * F * F * (V * V) by ring, h]; ring_nf
    _ ↔ 4 * F * F * D ≤ n * n * A := Nat.mul_le_mul_left_iff hA

/-- The triangle: the least n with (n/F)^2 >= 4*D/A (R102), also where it meets the trapezoid. -/
theorem profileTicks_isLeast_triangle (hV : 0 < V) (hA : 0 < A) (h : A * D ≤ V * V) :
    IsLeast { n | 4 * F * F * D ≤ n * n * A } (profileTicks D V A F) := by
  rcases h.lt_or_eq with hlt | heq
  · rw [profileTicks, if_neg (by omega)]
    exact leastSquare_isLeast A _ hA
  · simpa only [trapezoid_iff_triangle_at_boundary hV hA heq.symm] using
      profileTicks_isLeast_trapezoid (F := F) hV hA heq.ge

/-- No ticks at all would be below both bounds. -/
theorem profileTicks_pos (hD : 0 < D) (hV : 0 < V) (hA : 0 < A) (hF : 0 < F) : 0 < profileTicks D V A F := by
  refine Nat.pos_of_ne_zero fun h0 => ?_
  rcases Nat.le_total (V * V) (A * D) with h | h
  · have hbound : F * (A * D + V * V) ≤ profileTicks D V A F * (A * V) := (profileTicks_isLeast_trapezoid hV hA h).1
    have hpos : 0 < F * (A * D + V * V) := by positivity
    simp only [h0, Nat.zero_mul] at hbound
    omega
  · have hbound : 4 * F * F * D ≤ profileTicks D V A F * profileTicks D V A F * A :=
      (profileTicks_isLeast_triangle hV hA h).1
    have hpos : 0 < 4 * F * F * D := by positivity
    simp only [h0, Nat.zero_mul] at hbound
    omega

/-- No profile is faster than maxVelocity throughout (R108). -/
theorem le_profileTicks_mul_velocity (hV : 0 < V) (hA : 0 < A) : F * D ≤ profileTicks D V A F * V := by
  rcases Nat.le_total (V * V) (A * D) with h | h
  · have hbound : F * (A * D + V * V) ≤ profileTicks D V A F * (A * V) := (profileTicks_isLeast_trapezoid hV hA h).1
    refine Nat.le_of_mul_le_mul_left ?_ hA
    calc A * (F * D) ≤ F * (A * D + V * V) := by nlinarith [Nat.zero_le (F * (V * V))]
      _ ≤ profileTicks D V A F * (A * V) := hbound
      _ = A * (profileTicks D V A F * V) := by ring
  · have hbound : 4 * F * F * D ≤ profileTicks D V A F * profileTicks D V A F * A :=
      (profileTicks_isLeast_triangle hV hA h).1
    refine Nat.mul_self_le_mul_self_iff.mp ?_
    generalize profileTicks D V A F = n at hbound ⊢
    calc F * D * (F * D) ≤ 4 * F * F * D * D := by nlinarith [Nat.zero_le (F * D * (F * D))]
      _ ≤ n * n * A * D := Nat.mul_le_mul_right D hbound
      _ = n * n * (A * D) := Nat.mul_assoc _ _ _
      _ ≤ n * n * (V * V) := Nat.mul_le_mul_left _ h
      _ = n * V * (n * V) := by ring

end Profile

/-! ### The transition table (R114) -/

/-- The two finished latches (R43). -/
theorem RunState.finished_iff {r : RunState} : r.finished = true ↔ r = .finishedMoving ∨ r = .finishedHoming := by
  cases r <;> simp [RunState.finished]

/-- An OP changes the state of an axis along an arc of the table, if at all. -/
theorem Axis.OpChange.state_arc {p : Params} {r : Registry} {i : Instr} {a b : Axis} (h : Axis.OpChange p r i a b) :
    b.state = a.state ∨ arc i a.state b.state = true := by
  cases h with
  | keep | setPos | setMaxvel | setAccel | setStopmode | restore => exact .inl rfl
  | move hi hready => right; rcases hi with rfl | rfl <;> rw [hready] <;> rfl
  | home _ hready => right; rw [hready]; rfl
  | axisReset _ herror => right; rw [herror]; rfl
  | checkFinished _ hfin => right; rcases RunState.finished_iff.mp hfin with h | h <;> rw [h] <;> rfl

/-- The last pulse of a homing phase enters Error, any other leaves the phase (R167, R168). -/
theorem Axis.homePulse_state (a : Axis) : a.homePulse.1.state = a.state ∨ a.homePulse.1.state = .error := by
  rw [Axis.homePulse_eq]
  split
  · exact .inr rfl
  · exact .inl rfl

/-- The last pulse of a move finishes it, any other goes on with it (R161, R162). -/
theorem Axis.movePulse_state (a : Axis) (r : Nat) :
    (a.movePulse r).state = a.state ∨ (a.movePulse r).state = .finishedMoving := by
  rw [Axis.movePulse_eq]
  split
  · exact .inr rfl
  · exact .inl rfl

/-- A tick changes the state of an axis along an arc of the table, if at all. -/
theorem Axis.tick_state_arc (B : Word) (a : Axis) :
    (a.tick B).1.state = a.state ∨ arc .tick a.state (a.tick B).1.state = true := by
  cases hs : a.state with
  | moving =>
    rcases Axis.tick_moving_cases B hs with ⟨-, e⟩ | ⟨-, -, e⟩ | ⟨-, -, e⟩ <;> rw [e]
    · exact .inr (by rw [Axis.enterError_state]; rfl)
    · exact .inl hs
    · exact (a.movePulse_state _).imp (·.trans hs) fun h => by rw [h]; rfl
  | homingSeek =>
    rcases Axis.tick_seek_cases B hs with ⟨-, e⟩ | ⟨-, -, e⟩ | ⟨-, -, e⟩ <;> rw [e]
    · exact .inr (by rw [Axis.enterError_state]; rfl)
    · exact .inr rfl
    · exact a.homePulse_state.imp (·.trans hs) fun h => by rw [h]; rfl
  | homingBackoff =>
    rcases Axis.tick_backoff_cases B hs with ⟨-, e⟩ | ⟨-, -, e⟩ | ⟨-, -, e⟩ <;> rw [e]
    · exact .inr (by rw [Axis.enterError_state]; rfl)
    · exact .inr (by rw [Axis.endOfMotion_state]; rfl)
    · exact a.homePulse_state.imp (·.trans hs) fun h => by rw [h]; rfl
  | ready | finishedMoving | finishedHoming | error =>
    rw [Axis.tick_idle (by simp [hs, RunState.busy])]
    exact .inl hs

/-! ### Requests on a busy axis -/

/-- A configuration write fails while the axis is busy (R141, R143, R145). -/
theorem configOp_busy {axis : BitVec 8} {write : AxisConfig → Option AxisConfig} {s : State} {a : Axis}
    (ha : s.axes[axis.toNat]? = some a) (hbusy : a.state.busy = true) :
    configOp axis write s = .next (s.respond false 0) :=
  axisOp_refuses ha (if_pos hbusy)

/-- RESTORE_SETTINGS fails while an axis is busy (R194). -/
theorem execRestoreSettings_busy {s : State} {a : Axis} (ha : a ∈ s.axes) (hbusy : a.state.busy = true) (off : Word) :
    execRestoreSettings off s = .next (s.respond false 0) := by
  have hany : anyBusy s.axes = true := List.any_eq_true.mpr ⟨a, ha, hbusy⟩
  rw [execRestoreSettings, if_pos hany, failOp]

/-! ### The obligations of axis motion -/

/-- Settles O10: MOVE_ABS is StartMove on the addressed axis, accepted exactly under its preconditions. -/
theorem moveAbsStartsOrFails : Obligations.MoveAbsStartsOrFails := fun _ _ _ =>
  ⟨decode_opEncoding 0 rfl, axisOp_absent, fun _ ha => ⟨execMoveAbs_of_mayMove ha, execMoveAbs_of_not_mayMove ha⟩⟩

/-- Settles O11: MOVE_REL is StartMove at position + delta, once that is an int32. -/
theorem moveRelStartsOrFails : Obligations.MoveRelStartsOrFails := by
  refine fun s axis delta => ⟨decode_opEncoding 0 rfl, axisOp_absent, ?_⟩
  rintro a ha _ rfl
  refine ⟨fun hlow hhigh => execMoveRel_of_mayMove ha ⟨hlow, hhigh⟩, fun hfails => execMoveRel_of_not_mayMove ha ?_⟩
  rintro ⟨⟨hlow, hhigh⟩, hmay⟩
  rcases hfails with h | h | h
  · omega
  · omega
  · exact h hmay

/-- Settles O12: HOME writes the start of the seek where its three preconditions hold. -/
theorem homeStartsOrFails : Obligations.HomeStartsOrFails := by
  refine fun s axis v => ⟨decode_opEncoding 0 rfl, axisOp_absent, fun a ha => ⟨fun hready hhome hconf => ?_, fun hfails => ?_⟩⟩
  · have hstart := (Axis.startHoming_eq_some (p := s.params) (r := s.registry)).mpr ⟨hready, hhome, hconf, rfl, rfl⟩
    obtain ⟨t, ht, hw⟩ := axisOp_writes ha hstart
    have hdir (d : Direction) : dirLevel d = decide (d = .plus) := by cases d <;> rfl
    exact ⟨t, _, ht, hw.axis, rfl, rfl, hdir _, rfl, rfl, rfl, rfl, rfl, rfl, rfl, ⟨rfl, rfl, rfl⟩, hw.answer, hw.others,
      hw.surroundings⟩
  · refine axisOp_fails ha fun b w hstart => ?_
    obtain ⟨hready, hhome, hconf, -, -⟩ := Axis.startHoming_eq_some.mp hstart
    simp [hready, hhome, hconf] at hfails

/-- Settles O45: an OP and a tick move an axis along the arcs, and nothing else writes the axes. -/
theorem transitionsFollowTheTable : Obligations.TransitionsFollowTheTable := by
  intro i s t h j a b ha hb
  rcases exec_outcome h with hop | ⟨rfl, htick⟩ | hserial
  · obtain ⟨hchange, rfl | haddressed | ⟨off, rfl⟩⟩ := hop.axis_change ha hb
    · exact .inl rfl
    · exact hchange.state_arc.imp_right fun harc => ⟨harc, .inr haddressed⟩
    · exact .inl (by_contra fun hne => by simpa using hchange.frame.state hne)
  · rcases execTick_cases htick with ⟨-, rfl⟩ | ⟨-, rfl⟩
    · exact .inl (congrArg Axis.state (Option.some.inj (hb.symm.trans ha)))
    · obtain rfl : (a.tick s.params.homeTickBudget).1 = b := by simpa [ha] using hb
      exact (a.tick_state_arc _).imp_right fun harc => ⟨harc, .inl rfl⟩
  · rw [hserial.keeps.axes] at hb
    exact .inl (congrArg Axis.state (Option.some.inj (hb.symm.trans ha)))

/-- Settles O49: RESULT is the duration of the move, which is at least its profile's. -/
theorem durationIsAtLeastStraightLine : Obligations.DurationIsAtLeastStraightLine := by
  intro s t axis target r a ha h hanswer
  have hmay : s.MayMove a target.toInt := by
    by_contra hno
    obtain rfl : s.respond false 0 = t := by simpa using (execMoveAbs_of_not_mayMove ha hno).symm.trans h
    simpa using (hanswer.unique (s.answered_respond false 0)).1
  obtain ⟨u, b, hu, hstarted⟩ := execMoveAbs_of_mayMove ha hmay
  obtain rfl : u = t := by simpa using hu.symm.trans h
  obtain ⟨-, rfl⟩ := hanswer.unique hstarted.answer
  have hvelocity := hmay.velocity
  have haccel := hmay.accel
  calc s.registry.frequency.toNat * a.stepsTo target.toInt
      ≤ profileTicks (a.stepsTo target.toInt) a.config.maxVelocity.toInt.toNat a.config.acceleration.toInt.toNat
          s.registry.frequency.toNat * a.config.maxVelocity.toInt.toNat :=
        le_profileTicks_mul_velocity (by omega) (by omega)
    _ ≤ s.durationTo a target.toInt * a.config.maxVelocity.toInt.toNat := Nat.mul_le_mul_right _ (le_max_left _ _)
    _ = b.riseLength.toNat * a.config.maxVelocity.toInt.toNat := by rw [hstarted.riseLength]

/-- Settles O50, shape by shape. -/
theorem profileTicksIsTheLeastDuration : Obligations.ProfileTicksIsTheLeastDuration := fun _ _ _ _ hD hV hA hF =>
  ⟨profileTicks_pos hD hV hA hF, profileTicks_isLeast_trapezoid hV hA, profileTicks_isLeast_triangle hV hA⟩

/-- Settles O13: SET_POS is accepted exactly in Ready and writes the position. -/
theorem setPosWritesPositionOnly : Obligations.SetPosWritesPositionOnly := by
  refine fun s axis p => ⟨decode_opEncoding 0 rfl, axisOp_absent, fun a ha => ⟨fun hready => ?_, fun hno => ?_⟩⟩
  · obtain ⟨t, ht, hw⟩ := axisOp_writes ha (Axis.setPosition_eq_some.mpr ⟨hready, rfl, rfl⟩)
    exact ⟨t, ht, hw.axis, hw.answer, hw.others, hw.surroundings⟩
  · exact axisOp_fails ha fun _ _ hset => hno (Axis.setPosition_eq_some.mp hset).1

/-- Settles O14: AXIS_RESET is accepted exactly in Error and leaves it by `Axis.leaveError`. -/
theorem axisResetLeavesError : Obligations.AxisResetLeavesError := by
  refine fun s axis v => ⟨decode_opEncoding 0 rfl, axisOp_absent, fun a ha => ⟨fun herror => ?_, fun hno => ?_⟩⟩
  · obtain ⟨t, ht, hw⟩ := axisOp_writes ha (Axis.resetFromError_eq_some.mpr ⟨herror, rfl, rfl⟩)
    exact ⟨t, a.leaveError, ht, hw.axis, rfl, rfl, rfl, rfl, rfl, rfl, rfl, rfl, rfl, rfl, ⟨rfl, rfl, rfl⟩, hw.answer,
      hw.others, hw.surroundings⟩
  · exact axisOp_fails ha fun _ _ hreset => hno (Axis.resetFromError_eq_some.mp hreset).1

/-- Settles O48: a busy axis is neither Ready nor in Error, and setters and RESTORE_SETTINGS test for busy. -/
theorem busyRequestsFail : Obligations.BusyRequestsFail := by
  intro s axis a v ha hs
  have hbusy : a.state.busy = true := RunState.busy_iff.mpr hs
  have hready : a.state ≠ .ready := fun h => by simp [h, RunState.busy] at hbusy
  have herror : a.state ≠ .error := fun h => by simp [h, RunState.busy] at hbusy
  simp only [List.forall_mem_cons, List.not_mem_nil, false_implies, implies_true, and_true]
  refine ⟨?moveAbs, ?moveRel, ?home, ?setPos, ?axisReset, ?setMaxvel, ?setAccel, ?setStopmode,
    execRestoreSettings_busy (List.mem_of_getElem? ha) hbusy v⟩
  case moveAbs => exact execMoveAbs_of_not_mayMove ha fun h => hready h.ready
  case moveRel => exact execMoveRel_of_not_mayMove ha fun h => hready h.2.ready
  case home => exact axisOp_fails ha fun _ _ h => hready (Axis.startHoming_eq_some.mp h).1
  case setPos => exact axisOp_fails ha fun _ _ h => hready (Axis.setPosition_eq_some.mp h).1
  case axisReset => exact axisOp_fails ha fun _ _ h => herror (Axis.resetFromError_eq_some.mp h).1
  case setMaxvel => exact show execSetMaxvel axis v s = _ from configOp_busy ha hbusy
  case setAccel => exact show execSetAccel axis v s = _ from configOp_busy ha hbusy
  case setStopmode => exact show execSetStopmode axis v s = _ from configOp_busy ha hbusy

end Sys2Proof.Machine

/-! Axis access (41_axis_access.md): the queries, the setters and the finished latch, and the one writer of the home settings. -/

namespace Sys2Proof.Machine

/-! ### Queries, setters and the finished latch -/

section Access

variable {axis opcode : BitVec 8} {s : State} {a : Axis}

/-- An OP that runs as a `readOp` answers what it reads (R130-R147, R191). -/
theorem readsAxis_of_readOp {op : BitVec 8 → Instr} {read value : Axis → Word}
    (hrow : ∀ axis v, (opTable.find? fun row => row.1 == opcode).map (fun row => row.2 axis v) = some (op axis))
    (hexec : ∀ axis s, exec (op axis) s = readOp axis read s) (hvalue : ∀ a, read a = value a) :
    ReadsAxis opcode op value := by
  intro s axis v
  rw [hexec]
  exact ⟨decode_opEncoding 0 (hrow axis v), axisOp_absent, fun a ha => by rw [readOp_eq ha, hvalue]⟩

/-- A configuration write that `write` accepts replaces the configuration of an axis that is not busy. -/
theorem configOp_writes {write : AxisConfig → Option AxisConfig} {c : AxisConfig} (ha : s.axes[axis.toNat]? = some a)
    (hidle : a.state.busy = false) (hw : write a.config = some c) :
    ∃ t, configOp axis write s = .next t ∧ s.AxisWritten t axis.toNat { a with config := c } 0 :=
  axisOp_writes ha (by simp [hidle, hw])

/-- A configuration write fails for a value that `write` refuses, busy or not. -/
theorem configOp_refuses {write : AxisConfig → Option AxisConfig} (ha : s.axes[axis.toNat]? = some a)
    (hw : write a.config = none) : configOp axis write s = .next (s.respond false 0) :=
  axisOp_refuses ha (by simp [hw])

/-- An OP that runs as a `configOp` whose `write` accepts the legal values, and those alone, is a setter. -/
theorem writesConfig_of_configOp {op : BitVec 8 → Word → Instr} {write : Word → AxisConfig → Option AxisConfig}
    {legal : Word → Prop} {set : AxisConfig → Word → AxisConfig}
    (hrow : ∀ axis v, (opTable.find? fun row => row.1 == opcode).map (fun row => row.2 axis v) = some (op axis v))
    (hexec : ∀ axis v s, exec (op axis v) s = configOp axis (write v) s)
    (haccept : ∀ v c, legal v → write v c = some (set c v)) (hrefuse : ∀ v c, ¬ legal v → write v c = none) :
    WritesConfig opcode op legal set := by
  intro s axis v
  rw [hexec]
  refine ⟨decode_opEncoding 0 (hrow axis v), axisOp_absent, fun a ha => ⟨fun hmove hseek hback hlegal => ?_, fun hfails => ?_⟩⟩
  · have hidle : a.state.busy = false := Bool.eq_false_iff.mpr fun hbusy => by
      simpa [hmove, hseek, hback] using RunState.busy_iff.mp hbusy
    obtain ⟨t, ht, hw⟩ := configOp_writes ha hidle (haccept v a.config hlegal)
    exact ⟨t, ht, hw.axis, hw.answer, hw.others, hw.surroundings⟩
  · by_cases hlegal : legal v
    · have hbusy : a.state.busy = true := RunState.busy_iff.mpr (by simpa [hlegal] using hfails)
      exact configOp_busy ha hbusy
    · exact configOp_refuses ha (hrefuse v a.config hlegal)

/-- CHECK_FINISHED of a latch that is set leaves the axis Ready and answers 1 (R132). -/
theorem execCheckFinished_writes (ha : s.axes[axis.toNat]? = some a) (hfin : a.state.finished = true) :
    ∃ t, execCheckFinished axis s = .next t ∧ s.AxisWritten t axis.toNat { a with state := .ready } 1 :=
  axisOp_writes ha (if_pos hfin)

end Access

/-! ### The values -/

/-- BUSY answers R42's predicate as 0 or 1 (R131). -/
theorem boolWord_busy (r : RunState) :
    boolWord r.busy = if r = .moving ∨ r = .homingSeek ∨ r = .homingBackoff then 1 else 0 := by
  simp only [boolWord, RunState.busy_iff]

/-- SET_STOPMODE takes 0 and 1 (R145). -/
theorem stopModeOfWord_of_legal {v : Word} (h : v = 0 ∨ v = 1) :
    stopModeOfWord v = some (if v = 0 then .hold else .disable) := by
  rcases h with rfl | rfl <;> rfl

theorem stopModeOfWord_of_not_legal {v : Word} (h : ¬ (v = 0 ∨ v = 1)) : stopModeOfWord v = none := by
  obtain ⟨h0, h1⟩ := not_or.mp h
  rw [stopModeOfWord, if_neg h0, if_neg h1]

/-! ### The obligations of axis access -/

/-- Settles O18: each setter is a `configOp`; what it accepts are the positive int32, or the two stop modes. -/
theorem settersWriteOneField : Obligations.SettersWriteOneField := by
  refine ⟨?maxvel, ?accel, ?stopmode⟩
  case maxvel | accel =>
    exact writesConfig_of_configOp (fun _ _ => rfl) (fun _ _ _ => rfl)
      (fun v c hpos => if_neg (not_le.mpr hpos)) (fun v c hno => if_pos (not_lt.mp hno))
  case stopmode =>
    refine writesConfig_of_configOp (fun _ _ => rfl)
      (fun axis v s => show execSetStopmode axis v s = configOp axis _ s from rfl) (fun v c h => ?_) (fun v c h => ?_)
    · rw [stopModeOfWord_of_legal h]
    · rw [stopModeOfWord_of_not_legal h]

/-- Settles O47: an OP's frame names the one writer of the home settings, a tick keeps the whole configuration, and a line, a byte or a
handler event writes no axis. -/
theorem onlyRestoreWritesHomeSettings : Obligations.OnlyRestoreWritesHomeSettings := by
  intro i s t h hi j a b ha hb
  rcases exec_outcome h with hop | ⟨-, htick⟩ | hserial
  · by_contra hne
    obtain ⟨o, ho⟩ := (hop.axis_change ha hb).1.frame.home (not_and_or.mp hne)
    exact hi o ho
  · rcases execTick_cases htick with ⟨-, rfl⟩ | ⟨-, rfl⟩
    · obtain rfl := Option.some.inj (ha.symm.trans hb)
      exact ⟨rfl, rfl⟩
    · obtain rfl : (a.tick s.params.homeTickBudget).1 = b := by simpa [ha] using hb
      rw [(a.tick_frame _).fixtures.config]
      exact ⟨rfl, rfl⟩
  · rw [hserial.keeps.axes] at hb
    obtain rfl := Option.some.inj (ha.symm.trans hb)
    exact ⟨rfl, rfl⟩

/-- Settles O15: each query is a `readOp`, and the value it reads is the one of its rule. -/
theorem queriesAnswerAndWriteNothing : Obligations.QueriesAnswerAndWriteNothing := by
  refine ⟨?getPos, ?busy, ?getState, ?getMaxvel, ?getAccel, ?getStopmode, ?getHomedir, ?getCanhome, ?getAxis⟩
  case busy =>
    exact readsAxis_of_readOp (fun _ _ => rfl) (fun _ _ => rfl) fun a => boolWord_busy a.state
  case getState =>
    exact readsAxis_of_readOp (fun _ _ => rfl) (fun _ _ => rfl) fun a => by cases a.state <;> rfl
  case getStopmode =>
    exact readsAxis_of_readOp (fun _ _ => rfl) (fun _ _ => rfl) fun a => by cases a.config.stopMode <;> rfl
  case getHomedir =>
    exact readsAxis_of_readOp (fun _ _ => rfl) (fun _ _ => rfl) fun a => by cases a.config.homeDirection <;> rfl
  case getCanhome =>
    exact readsAxis_of_readOp (fun _ _ => rfl) (fun _ _ => rfl) fun a => by cases a.config.canHome <;> rfl
  case getPos | getMaxvel | getAccel | getAxis =>
    exact readsAxis_of_readOp (fun _ _ => rfl) (fun _ _ => rfl) fun _ => rfl

/-- Settles O16: CHECK_FINISHED clears a latch that is set and answers 0 where none is. -/
theorem checkFinishedTestsAndClears : Obligations.CheckFinishedTestsAndClears := by
  refine fun s axis v => ⟨decode_opEncoding 0 rfl, axisOp_absent, fun a ha => ⟨fun hs => ?_, fun hmove hhome => ?_⟩⟩
  · have hfin : a.state.finished = true := RunState.finished_iff.mpr hs
    obtain ⟨t, ht, hw⟩ := execCheckFinished_writes ha hfin
    exact ⟨t, ht, hw.axis, hw.answer, hw.others, hw.surroundings⟩
  · refine execCheckFinished_of_unfinished ha (Bool.eq_false_iff.mpr fun hfin => ?_)
    exact (RunState.finished_iff.mp hfin).elim hmove hhome

end Sys2Proof.Machine

/-! The timer tick (42_tick.md): what one TICK makes of each axis and of the step log. -/

namespace Sys2Proof.Machine

/-! ### The fan-out (R160) -/

section FanOut

variable {B : Word}

/-- The state a TICK of a configured block leaves (R160). -/
def State.ticked (s : State) : State :=
  { s with
    axes := tickAxes s.params.homeTickBudget s.axes
    obs  := { s.obs with steps := s.obs.steps ++ tickEvents s.params.homeTickBudget 0 s.axes } }

theorem execTick_ticked {s : State} (h : s.registry.configured = true) : execTick s = .next s.ticked :=
  execTick_configured h

theorem exec_tick_ticked {s : State} (h : s.registry.configured = true) : exec .tick s = .next s.ticked :=
  execTick_configured h

@[simp] theorem State.ticked_params (s : State) : s.ticked.params = s.params := rfl
@[simp] theorem State.ticked_registry (s : State) : s.ticked.registry = s.registry := rfl
@[simp] theorem State.ticked_axes (s : State) : s.ticked.axes = tickAxes s.params.homeTickBudget s.axes := rfl
@[simp] theorem State.ticked_obs_steps (s : State) :
    s.ticked.obs.steps = s.obs.steps ++ tickEvents s.params.homeTickBudget 0 s.axes := rfl

theorem mem_stepEvents {i : Nat} {p : Option Direction} {e : StepEvent} :
    e ∈ stepEvents i p ↔ e.axis = i ∧ p = some e.direction := by
  obtain ⟨j, d⟩ := e
  cases p with
  | none => simp [stepEvents]
  | some d' => simp [stepEvents, eq_comm]

/-- A step event of a fan-out is the pulse of the axis it names. -/
theorem exists_pulse_of_mem_tickEvents {k : Nat} {axes : List Axis} {e : StepEvent} (h : e ∈ tickEvents B k axes) :
    ∃ (i : Nat) (a : Axis), e.axis = k + i ∧ axes[i]? = some a ∧ (a.tick B).2 = some e.direction := by
  induction axes generalizing k with
  | nil => simp [tickEvents] at h
  | cons a rest ih =>
    rcases List.mem_append.mp h with hown | hlater
    · obtain ⟨haxis, hpulse⟩ := mem_stepEvents.mp hown
      exact ⟨0, a, haxis, rfl, hpulse⟩
    · obtain ⟨i, b, haxis, hb, hpulse⟩ := ih hlater
      exact ⟨i + 1, b, by omega, hb, hpulse⟩

/-- The step events of a fan-out come in ascending axis index (decision D28). -/
theorem tickEvents_ascending (k : Nat) (axes : List Axis) :
    ((tickEvents B k axes).map fun e => e.axis).Pairwise (· < ·) := by
  induction axes generalizing k with
  | nil => exact .nil
  | cons a rest ih =>
    rw [tickEvents, List.map_append, List.pairwise_append]
    refine ⟨?_, ih (k + 1), ?_⟩
    · cases (a.tick B).2 <;> simp [stepEvents]
    · simp only [List.mem_map]
      rintro _ ⟨e, he, rfl⟩ _ ⟨e', he', rfl⟩
      obtain ⟨haxis, -⟩ := mem_stepEvents.mp he
      obtain ⟨i, -, haxis', -, -⟩ := exists_pulse_of_mem_tickEvents he'
      omega

/-- The step events of axis i in a TICK are its own pulse. -/
theorem stepsOf_tickEvents_axis {axes : List Axis} {i : Nat} {a : Axis} (ha : axes[i]? = some a) :
    stepsOf i (tickEvents B 0 axes) = stepEvents i (a.tick B).2 := by
  simpa [ha] using stepsOf_tickEvents B axes 0 i

/-- A TICK makes of axis i what its own tick makes of it. -/
theorem ticksTo_of_tick {s : State} {i : Nat} {a b : Axis} {p : Option Direction} (ha : s.axes[i]? = some a)
    (h : a.tick s.params.homeTickBudget = (b, p)) : TicksTo s s.ticked i b p.toList where
  axis  := by simp [ha, h]
  steps := by
    refine ⟨_, s.ticked_obs_steps, ?_⟩
    rw [stepsOf_tickEvents_axis ha, h]
    cases p <;> rfl

end FanOut

/-! ### The branches of a tick, in the words of the statements -/

section Branches

variable {a : Axis}

theorem ite_disable_eq_enableAtEnd (a : Axis) :
    (if a.config.stopMode = .disable then false else a.enable) = enableAtEnd a := by
  unfold enableAtEnd
  cases a.config.stopMode <;> rfl

theorem add_directionWord_eq_stepped (a : Axis) : a.position + directionWord a.direction = stepped a := by
  unfold stepped
  cases a.direction with
  | plus => rfl
  | minus => rw [show directionWord .minus = -1 by decide, ← sub_eq_add_neg]

theorem Axis.endOfMotion_eq_enableAtEnd (a : Axis) : a.endOfMotion = { a with enable := enableAtEnd a } := by
  rw [Axis.endOfMotion_eq, ite_disable_eq_enableAtEnd]

/-- EnterError (R166). -/
theorem Axis.enterError_eq (a : Axis) :
    a.enterError = { a with state := .error, stepsRemaining := 0, enable := enableAtEnd a } :=
  Axis.endOfMotion_eq_enableAtEnd _

theorem Axis.movePulse_of_last (r : Nat) (h : a.stepsRemaining = 1) :
    a.movePulse r = { a with
      error := BitVec.ofNat 32 r, step := !a.step, stepsRemaining := 0, state := .finishedMoving
      enable := enableAtEnd a, position := stepped a } := by
  rw [Axis.movePulse_eq, if_pos (sub_eq_zero.mpr h), ite_disable_eq_enableAtEnd, add_directionWord_eq_stepped]

theorem Axis.movePulse_of_not_last (r : Nat) (h : a.stepsRemaining ≠ 1) :
    a.movePulse r = { a with
      error := BitVec.ofNat 32 r, step := !a.step, stepsRemaining := a.stepsRemaining - 1, position := stepped a } := by
  rw [Axis.movePulse_eq, if_neg (sub_ne_zero.mpr h), add_directionWord_eq_stepped]

theorem Axis.homePulse_of_last (h : a.stepsRemaining = 1) :
    a.homePulse = ({ a with
      step := !a.step, stepsRemaining := 0, state := .error, enable := enableAtEnd a, position := stepped a },
      some a.direction) := by
  rw [Axis.homePulse_eq, if_pos (sub_eq_zero.mpr h), ite_disable_eq_enableAtEnd, add_directionWord_eq_stepped]

theorem Axis.homePulse_of_not_last (h : a.stepsRemaining ≠ 1) :
    a.homePulse = ({ a with step := !a.step, stepsRemaining := a.stepsRemaining - 1, position := stepped a },
      some a.direction) := by
  rw [Axis.homePulse_eq, if_neg (sub_ne_zero.mpr h), add_directionWord_eq_stepped]

/-- A homing pulse with budget left and with the last of it, as TICK shows them (R167-R169). -/
theorem ticksTo_of_homePulse {s : State} {i : Nat} (ha : s.axes[i]? = some a)
    (h : a.tick s.params.homeTickBudget = a.homePulse) :
    (a.stepsRemaining ≠ 1 → TicksTo s s.ticked i { a with
      step := !a.step, stepsRemaining := a.stepsRemaining - 1, position := stepped a } [a.direction]) ∧
    (a.stepsRemaining = 1 → TicksTo s s.ticked i { a with
      step := !a.step, stepsRemaining := 0, state := .error, enable := enableAtEnd a,
      position := stepped a } [a.direction]) :=
  ⟨fun hmore => ticksTo_of_tick ha (h.trans (Axis.homePulse_of_not_last hmore)),
    fun hlast => ticksTo_of_tick ha (h.trans (Axis.homePulse_of_last hlast))⟩

theorem ticksTo_of_enterError {s : State} {i : Nat} (ha : s.axes[i]? = some a)
    (h : a.tick s.params.homeTickBudget = (a.enterError, none)) :
    TicksTo s s.ticked i { a with state := .error, stepsRemaining := 0, enable := enableAtEnd a } [] :=
  ticksTo_of_tick ha (by rw [h, Axis.enterError_eq])

/-- A homing axis whose budget has run out enters Error (R167, R168). -/
theorem ticksTo_of_budget_spent {s : State} {i : Nat} (ha : s.axes[i]? = some a) (h0 : a.stepsRemaining = 0)
    (h : a.tick s.params.homeTickBudget = (a.enterError, none)) :
    TicksTo s s.ticked i { a with state := .error, enable := enableAtEnd a } [] := by
  have herr := ticksTo_of_enterError ha h
  rwa [← h0] at herr

theorem toNat_ofNat_word {n : Nat} (h : n < 2 ^ 32) : (BitVec.ofNat 32 n : Word).toNat = n := Nat.mod_eq_of_lt h

theorem limitReads_iff_readLimit {level : Bool} : limitReads a level ↔ a.readLimit = level := by
  unfold limitReads Axis.readLimit
  cases a.build.hasLimit <;> rfl

theorem Axis.moveBroken_eq_true :
    a.moveBroken = true ↔ a.riseLength = 0 ∨ a.stepsRemaining = 0 ∨ a.riseLength.toNat < a.runLength.toNat := by
  simp [Axis.moveBroken, or_assoc]

end Branches

/-- Settles O36: a fan-out's step events are the pulses of its axes, in their order, and an axis that is not busy has an idle tick. -/
theorem tickFansOutInOrder : Obligations.TickFansOutInOrder := by
  refine ⟨fun s hconf => execTick_unconfigured hconf, fun s hconf => ?_⟩
  refine ⟨s.ticked, _, exec_tick_ticked hconf, s.ticked_obs_steps, tickEvents_ascending 0 s.axes, fun e he => ?_,
    length_tickAxes _ _, fun i a ha hmove hseek hback => ?_⟩
  · obtain ⟨i, a, haxis, ha, hpulse⟩ := exists_pulse_of_mem_tickEvents he
    obtain ⟨hdir, hbusy⟩ := Axis.tick_pulse hpulse
    exact ⟨a, by rw [haxis, Nat.zero_add, ha], hdir, RunState.busy_iff.mp hbusy⟩
  · have hidle : a.state.busy = false :=
      Bool.eq_false_iff.mpr fun hbusy => (RunState.busy_iff.mp hbusy).elim hmove fun h => h.elim hseek hback
    simp [ha, Axis.tick_idle hidle]

/-- Settles O37: the three branches of a moving tick, the pulse split by whether it is the last. -/
theorem movingTickSpreadsPulses : Obligations.MovingTickSpreadsPulses := by
  intro s i a hconf ha hs
  refine ⟨s.ticked, exec_tick_ticked hconf, fun hbroken => ?broken, fun hrise hsteps hrun => ⟨fun hq => ?quiet, fun hp => ?pulse⟩⟩
  case broken => exact ticksTo_of_enterError ha (Axis.tick_moving_broken hs (Axis.moveBroken_eq_true.mpr hbroken))
  all_goals have hsound : a.moveBroken = false := Axis.moveBroken_eq_false.mpr ⟨hrise, hsteps, hrun⟩
  case quiet =>
    exact ⟨_, toNat_ofNat_word (hq.trans a.riseLength.isLt), ticksTo_of_tick ha (Axis.tick_moving_quiet hs hsound hq)⟩
  case pulse =>
    have htick := Axis.tick_moving_pulse (B := s.params.homeTickBudget) hs hsound hp
    have hfits : a.error.toNat + a.runLength.toNat - a.riseLength.toNat < 2 ^ 32 := by
      have := a.error.isLt
      omega
    refine ⟨_, toNat_ofNat_word hfits, fun hmore => ?_, fun hlast => ?_⟩
    · exact ticksTo_of_tick ha (by rw [htick, Axis.movePulse_of_not_last _ hmore])
    · exact ticksTo_of_tick ha (by rw [htick, Axis.movePulse_of_last _ hlast])

/-- Settles O38: the three cases of a seek tick. -/
theorem seekTickSamplesThenPulses : Obligations.SeekTickSamplesThenPulses := by
  intro s i a hconf ha hs
  refine ⟨s.ticked, exec_tick_ticked hconf, ?_⟩
  simp only [limitReads_iff_readLimit]
  rcases Axis.tick_seek_cases s.params.homeTickBudget hs with ⟨h0, htick⟩ | ⟨h0, hlim, htick⟩ | ⟨h0, hlim, htick⟩
  · exact ⟨fun _ => ticksTo_of_budget_spent ha h0 htick, fun h => absurd h0 h, fun h => absurd h0 h⟩
  · refine ⟨fun h => absurd h h0, fun _ _ => ?_, fun _ h => by simp [hlim] at h⟩
    have hturn : a.setDir (reverseDirection a.direction) = { a with
        direction := if a.direction = .plus then .minus else .plus
        dir       := decide (a.direction = .minus) } := by
      unfold Axis.setDir
      cases a.direction <;> rfl
    exact ticksTo_of_tick ha (by rw [htick, hturn])
  · exact ⟨fun h => absurd h h0, fun _ h => by simp [hlim] at h, fun _ _ => ticksTo_of_homePulse ha htick⟩

/-- Settles O39: the three cases of a back-off tick. -/
theorem backoffTickStopsAtRelease : Obligations.BackoffTickStopsAtRelease := by
  intro s i a hconf ha hs
  refine ⟨s.ticked, exec_tick_ticked hconf, ?_⟩
  simp only [limitReads_iff_readLimit]
  rcases Axis.tick_backoff_cases s.params.homeTickBudget hs with ⟨h0, htick⟩ | ⟨h0, hlim, htick⟩ | ⟨h0, hlim, htick⟩
  · exact ⟨fun _ => ticksTo_of_budget_spent ha h0 htick, fun h => absurd h0 h, fun h => absurd h0 h⟩
  · refine ⟨fun h => absurd h h0, fun _ _ => ?_, fun _ h => by simp [hlim] at h⟩
    exact ticksTo_of_tick ha (by rw [htick, Axis.endOfMotion_eq_enableAtEnd])
  · exact ⟨fun h => absurd h h0, fun _ h => by simp [hlim] at h, fun _ _ => ticksTo_of_homePulse ha htick⟩

end Sys2Proof.Machine

/-! The pulses of one move (R163, R164): how many a run of TICKs has emitted, and on which tick each falls. -/

namespace Sys2Proof.Machine

/-! ### A run of TICKs -/

theorem State.iterate_ticked_configured {s : State} (h : s.registry.configured = true) (k : Nat) :
    (State.ticked^[k] s).registry.configured = true := by
  induction k generalizing s with
  | zero => exact h
  | succ k ih => exact ih h

/-- A run of k TICKs of a configured block answers next. -/
theorem tickRun_configured {s : State} (h : s.registry.configured = true) (k : Nat) :
    tickRun k s = .next (State.ticked^[k] s) := by
  induction k generalizing s with
  | zero => rfl
  | succ k ih =>
    simp only [tickRun, execTick_ticked h]
    exact ih h

@[simp] theorem stepsOf_append (i : Nat) (xs ys : List StepEvent) : stepsOf i (xs ++ ys) = stepsOf i xs ++ stepsOf i ys :=
  List.filter_append ..

/-! ### The pulse of a move, field by field -/

section MovePulse

variable (a : Axis) (n : Nat)

@[simp] theorem Axis.movePulse_direction : (a.movePulse n).direction = a.direction := by
  rw [Axis.movePulse_eq]; split <;> rfl

@[simp] theorem Axis.movePulse_runLength : (a.movePulse n).runLength = a.runLength := by
  rw [Axis.movePulse_eq]; split <;> rfl

@[simp] theorem Axis.movePulse_riseLength : (a.movePulse n).riseLength = a.riseLength := by
  rw [Axis.movePulse_eq]; split <;> rfl

@[simp] theorem Axis.movePulse_error : (a.movePulse n).error = BitVec.ofNat 32 n := by
  rw [Axis.movePulse_eq]; split <;> rfl

@[simp] theorem Axis.movePulse_position : (a.movePulse n).position = a.position + directionWord a.direction := by
  rw [Axis.movePulse_eq]; split <;> rfl

@[simp] theorem Axis.movePulse_stepsRemaining : (a.movePulse n).stepsRemaining = a.stepsRemaining - 1 := by
  rw [Axis.movePulse_eq]
  split
  · next h => exact h.symm
  · rfl

theorem Axis.movePulse_state_eq :
    (a.movePulse n).state = if a.stepsRemaining - 1 = 0 then .finishedMoving else a.state := by
  rw [Axis.movePulse_eq]
  split <;> rfl

end MovePulse

/-! ### The progress of one axis -/

/-- The axis at the start of a move of D steps over r ticks, as a commit leaves it (R104), with its target an int32. -/
structure Axis.MoveStart (a : Axis) (D r : Nat) : Prop where
  state      : a.state = .moving
  runLength  : a.runLength.toNat = D
  riseLength : a.riseLength.toNat = r
  error      : a.error = 0
  steps      : a.stepsRemaining.toNat = D
  pos        : 1 ≤ D
  le         : D ≤ r
  target     : FitsInt32 (a.position.toInt + directionInt a.direction * (D : Int))

/-- The axis b stands k ticks into the move that a starts (R163). -/
structure Axis.MoveProgress (a : Axis) (D r k : Nat) (b : Axis) : Prop where
  state      : b.state = if k < r then .moving else .finishedMoving
  direction  : b.direction = a.direction
  runLength  : b.runLength.toNat = D
  riseLength : b.riseLength.toNat = r
  error      : b.error.toNat = k * D - k * D / r * r
  steps      : b.stepsRemaining.toNat = D - k * D / r
  position   : b.position.toInt = a.position.toInt + directionInt a.direction * ((k * D / r : Nat) : Int)

/-- The last step of a move falls on its last tick. -/
theorem moveCount_lt_iff {D r k : Nat} (hD : 1 ≤ D) (hr : D ≤ r) : k * D / r < D ↔ k < r := by
  rw [Nat.div_lt_iff_lt_mul (hD.trans hr), Nat.mul_comm D r]
  exact Nat.mul_lt_mul_right hD

/-- A step short of the target of a move is an int32. -/
theorem fitsInt32_before_target {w : Word} {d : Direction} {c D : Nat} (h : FitsInt32 (w.toInt + directionInt d * (D : Int)))
    (hc : c ≤ D) : FitsInt32 (w.toInt + directionInt d * (c : Int)) := by
  have hw := fitsInt32_toInt w
  cases d <;> simp only [directionInt, FitsInt32] at h hw ⊢ <;> omega

section Progress

variable {a b : Axis} {B : Word} {D r k : Nat}

theorem Axis.MoveStart.progress_zero (h : a.MoveStart D r) : a.MoveProgress D r 0 a where
  state      := by rw [if_pos (Nat.lt_of_lt_of_le h.pos h.le), h.state]
  direction  := rfl
  runLength  := h.runLength
  riseLength := h.riseLength
  error      := by simp [h.error]
  steps      := by simp [h.steps]
  position   := by simp

theorem Axis.MoveProgress.sound (h : a.MoveProgress D r k b) (hstart : a.MoveStart D r) (hk : k < r) :
    b.moveBroken = false := by
  have hcount := (moveCount_lt_iff hstart.pos hstart.le).mpr hk
  have hrise := h.riseLength
  have hsteps := h.steps
  refine Axis.moveBroken_eq_false.mpr ⟨fun h0 => ?_, fun h0 => ?_, by rw [h.runLength, hrise]; exact hstart.le⟩
  · simp [h0] at hrise
    omega
  · simp [h0] at hsteps
    omega

/-- A tick whose sum stays below r goes on with the move; it is not the last (R161). -/
theorem Axis.MoveProgress.quiet (h : a.MoveProgress D r k b) (hstart : a.MoveStart D r) (hk : k < r)
    (hq : k * D - k * D / r * r + D < r) :
    a.MoveProgress D r (k + 1) (b.tick B).1 ∧ (b.tick B).2 = none ∧ (k + 1) * D / r = k * D / r := by
  obtain ⟨hnext, hdiv, hrest⟩ := accumulator_quiet hk hstart.pos hq
  have hs : b.state = .moving := h.state.trans (if_pos hk)
  have hsum : b.error.toNat + b.runLength.toNat = k * D - k * D / r * r + D := by rw [h.error, h.runLength]
  have hrlt : r < 2 ^ 32 := h.riseLength ▸ b.riseLength.isLt
  rw [Axis.tick_moving_quiet hs (h.sound hstart hk) (by rw [hsum, h.riseLength]; exact hq)]
  refine ⟨?_, rfl, hdiv⟩
  exact {
    state      := hs.trans (if_pos hnext).symm
    direction  := h.direction
    runLength  := h.runLength
    riseLength := h.riseLength
    error      := by rw [hrest, ← hsum]; exact toNat_ofNat_word (by omega)
    steps      := by rw [hdiv]; exact h.steps
    position   := by rw [hdiv]; exact h.position }

/-- A pulse within the move moves the position by exactly one step (R163). -/
theorem Axis.MoveProgress.position_after_pulse (h : a.MoveProgress D r k b) (hstart : a.MoveStart D r) (hk : k < r) :
    (b.position + directionWord b.direction).toInt =
      a.position.toInt + directionInt a.direction * ((k * D / r + 1 : Nat) : Int) := by
  have hcount : k * D / r + 1 ≤ D := (moveCount_lt_iff hstart.pos hstart.le).mpr hk
  have hstep : b.position.toInt + directionInt b.direction =
      a.position.toInt + directionInt a.direction * ((k * D / r + 1 : Nat) : Int) := by
    rw [h.position, h.direction]
    push_cast
    ring
  have hfits := fitsInt32_before_target hstart.target hcount
  rw [← hstep] at hfits ⊢
  exact toInt_add_directionWord _ _ hfits

/-- A tick whose sum reaches r emits the next pulse of the move; the last pulse finishes it (R161, R162). -/
theorem Axis.MoveProgress.pulse (h : a.MoveProgress D r k b) (hstart : a.MoveStart D r) (hk : k < r)
    (hp : r ≤ k * D - k * D / r * r + D) :
    a.MoveProgress D r (k + 1) (b.tick B).1 ∧ (b.tick B).2 = some a.direction ∧ (k + 1) * D / r = k * D / r + 1 := by
  obtain ⟨hdiv, hrest⟩ := accumulator_pulse hk hstart.le hp
  have hs : b.state = .moving := h.state.trans (if_pos hk)
  have hsound := h.sound hstart hk
  have hsum : b.error.toNat + b.runLength.toNat = k * D - k * D / r * r + D := by rw [h.error, h.runLength]
  have hrest_lt : k * D - k * D / r * r + D - r < 2 ^ 32 := by
    have herr := h.error ▸ b.error.isLt
    have hle := hstart.le
    omega
  have hleft : (b.stepsRemaining - 1).toNat = D - (k + 1) * D / r := by
    rw [toNat_sub_one (Axis.moveBroken_eq_false.mp hsound).2.1, h.steps, hdiv, Nat.sub_sub]
  have hlast : b.stepsRemaining - 1 = 0 ↔ ¬ k + 1 < r := by
    rw [← moveCount_lt_iff (k := k + 1) hstart.pos hstart.le, ← BitVec.toNat_inj, hleft, not_lt]
    exact Nat.sub_eq_zero_iff_le
  rw [Axis.tick_moving_pulse hs hsound (by rw [hsum, h.riseLength]; exact hp), hsum, h.riseLength]
  refine ⟨?_, by rw [h.direction], hdiv⟩
  exact {
    state      := by rw [Axis.movePulse_state_eq, hs]; simp only [hlast, ite_not]
    direction  := by rw [Axis.movePulse_direction, h.direction]
    runLength  := by rw [Axis.movePulse_runLength, h.runLength]
    riseLength := by rw [Axis.movePulse_riseLength, h.riseLength]
    error      := by rw [Axis.movePulse_error, hrest]; exact toNat_ofNat_word hrest_lt
    steps      := by rw [Axis.movePulse_stepsRemaining, hleft]
    position   := by rw [Axis.movePulse_position, h.position_after_pulse hstart hk, hdiv] }

/-- One tick of a move: its progress, and the pulse the count floor(k*D/r) asks for (R163). -/
theorem Axis.MoveProgress.tick (h : a.MoveProgress D r k b) (hstart : a.MoveStart D r) (hk : k < r) (i : Nat) :
    a.MoveProgress D r (k + 1) (b.tick B).1 ∧
      List.replicate (k * D / r) { axis := i, direction := a.direction } ++ stepEvents i (b.tick B).2 =
        List.replicate ((k + 1) * D / r) { axis := i, direction := a.direction } := by
  rcases Nat.lt_or_ge (k * D - k * D / r * r + D) r with hq | hp
  · obtain ⟨hprog, hnone, hdiv⟩ := h.quiet (B := B) hstart hk hq
    exact ⟨hprog, by rw [hnone, hdiv]; exact List.append_nil _⟩
  · obtain ⟨hprog, hsome, hdiv⟩ := h.pulse (B := B) hstart hk hp
    exact ⟨hprog, by rw [hsome, hdiv, List.replicate_succ']; rfl⟩

end Progress

/-! ### The progress of the machine -/

/-- In t, axis i stands k ticks into the move that it starts in s, and the log has the pulses of those ticks. -/
structure State.MoveProgress (s : State) (i : Nat) (a : Axis) (D r k : Nat) (t : State) (b : Axis) : Prop where
  axis     : t.axes[i]? = some b
  progress : a.MoveProgress D r k b
  pulses   : ∃ events : List StepEvent, t.obs.steps = s.obs.steps ++ events ∧
    stepsOf i events = List.replicate (k * D / r) { axis := i, direction := a.direction }

section Run

variable {s : State} {i : Nat} {a : Axis} {D r : Nat}

theorem State.MoveProgress.ticked {t : State} {b : Axis} {k : Nat} (h : s.MoveProgress i a D r k t b)
    (hstart : a.MoveStart D r) (hk : k < r) :
    s.MoveProgress i a D r (k + 1) t.ticked (b.tick t.params.homeTickBudget).1 := by
  obtain ⟨haxis, hprog, events, hlog, hpulses⟩ := h
  obtain ⟨hnext, happend⟩ := hprog.tick (B := t.params.homeTickBudget) hstart hk i
  refine ⟨by simp [haxis], hnext, _, by rw [t.ticked_obs_steps, hlog, List.append_assoc], ?_⟩
  rw [stepsOf_append, hpulses, stepsOf_tickEvents_axis haxis, happend]

/-- R163, by induction on the number of ticks. -/
theorem State.moveProgress_iterate (ha : s.axes[i]? = some a) (hstart : a.MoveStart D r) {k : Nat} (hk : k ≤ r) :
    ∃ b, s.MoveProgress i a D r k (State.ticked^[k] s) b := by
  induction k with
  | zero => exact ⟨a, ha, hstart.progress_zero, [], by simp, by simp [stepsOf]⟩
  | succ k ih =>
    obtain ⟨b, hb⟩ := ih (by omega)
    rw [Function.iterate_succ_apply']
    exact ⟨_, hb.ticked hstart hk⟩

/-- k ticks into its move, the axis has emitted floor(k*D/r) pulses. -/
theorem pulsesAfter_of_moveStart (hconf : s.registry.configured = true) (ha : s.axes[i]? = some a)
    (hstart : a.MoveStart D r) {k : Nat} (hk : k ≤ r) : PulsesAfter s i k (k * D / r) := by
  obtain ⟨b, -, -, events, hlog, hpulses⟩ := State.moveProgress_iterate ha hstart hk
  exact ⟨_, events, tickRun_configured hconf k, hlog, by rw [hpulses, List.length_replicate]⟩

end Run

/-! ### The tick a pulse falls on (R164) -/

section PulseTick

variable {D r c m : Nat}

/-- ceil(x/D), bounded from both sides. -/
theorem ceilTick_bounds (hD : 1 ≤ D) (x : Nat) : x ≤ (x + D - 1) / D * D ∧ (x + D - 1) / D * D < x + D := by
  have hle := Nat.div_mul_le_self (x + D - 1) D
  have hlt := Nat.lt_div_mul_add (a := x + D - 1) (b := D) hD
  omega

/-- Tick m = ceil(c*r/D) is within the move, and the first after which c pulses are out. -/
theorem pulse_falls_on_tick (hD : 1 ≤ D) (hr : D ≤ r) (hc : 1 ≤ c) (hcD : c ≤ D) (hm : m = (c * r + D - 1) / D) :
    m ≤ r ∧ m * D / r = c ∧ (m - 1) * D / r = c - 1 := by
  obtain ⟨hlow, hhigh⟩ := ceilTick_bounds hD (c * r)
  rw [← hm] at hlow hhigh
  have hcr : r ≤ c * r := Nat.le_mul_of_pos_left r hc
  have hprev : (c - 1) * r = c * r - r := Nat.sub_one_mul c r
  have hmprev : (m - 1) * D = m * D - D := Nat.sub_one_mul m D
  refine ⟨?_, Nat.div_eq_of_lt_le hlow ?_, Nat.div_eq_of_lt_le ?_ ?_⟩
  · have hmr : m * D < (r + 1) * D := by
      calc m * D < c * r + D := hhigh
        _ ≤ D * r + D := by gcongr
        _ = (r + 1) * D := by ring
    exact Nat.lt_succ_iff.mp (Nat.lt_of_mul_lt_mul_right hmr)
  · rw [Nat.succ_mul]
    omega
  · omega
  · rw [Nat.sub_add_cancel hc]
    omega

/-- The distance of two successive pulses, a gap of ticks whose D-fold is within D of r, is floor(r/D) or ceil(r/D). -/
theorem gap_eq_floor_or_ceil {g : Nat} (hD : 1 ≤ D) (hlow : r < g * D + D) (hhigh : g * D < r + D) :
    g = r / D ∨ g = (r + D - 1) / D := by
  by_cases hg : g * D ≤ r
  · exact .inl (Nat.div_eq_of_lt_le hg (by rw [Nat.succ_mul]; exact hlow)).symm
  · exact .inr (Nat.div_eq_of_lt_le (by omega) (by rw [Nat.succ_mul]; omega)).symm

theorem pulse_gap {j n : Nat} (hD : 1 ≤ D) (hr : D ≤ r) (hm : m = (j * r + D - 1) / D)
    (hn : n = ((j + 1) * r + D - 1) / D) : m < n ∧ (n - m = r / D ∨ n - m = (r + D - 1) / D) := by
  obtain ⟨hmlow, hmhigh⟩ := ceilTick_bounds hD (j * r)
  obtain ⟨hnlow, hnhigh⟩ := ceilTick_bounds hD ((j + 1) * r)
  rw [← hm] at hmlow hmhigh
  rw [← hn] at hnlow hnhigh
  rw [Nat.succ_mul] at hnlow hnhigh
  have hgap : (n - m) * D = n * D - m * D := Nat.sub_mul n m D
  exact ⟨Nat.lt_of_mul_lt_mul_right (a := D) (by omega), gap_eq_floor_or_ceil hD (by omega) (by omega)⟩

end PulseTick

/-! ### The obligations -/

/-- Settles O42: the progress of the move after k ticks, read off at k. -/
theorem moveEmitsItsPulsesEvenly : Obligations.MoveEmitsItsPulsesEvenly := by
  intro s i a D r k hconf ha hs hrun hrise herror hsteps hD hle htarget hk
  obtain ⟨b, haxis, hb, events, hlog, hpulses⟩ :=
    State.moveProgress_iterate ha ⟨hs, hrun, hrise, herror, hsteps, hD, hle, htarget⟩ hk
  have herr : b.error.toNat = k * D % r := by rw [hb.error, ← Nat.mod_eq_sub_div_mul]
  refine ⟨_, b, events, tickRun_configured hconf k, haxis, hlog, hpulses, hb.position, herr, hb.steps,
    fun hlt => hb.state.trans (if_pos hlt), fun hend => ⟨hb.state.trans (if_neg (by omega)), ?_⟩⟩
  rw [hend, Nat.mul_mod_right] at herr
  exact BitVec.eq_of_toNat_eq herr

/-- Settles O43: the counts of O42 around ticks m and n, and the gap of the two ceilings. -/
theorem pulsesAreSpacedEvenly : Obligations.PulsesAreSpacedEvenly := by
  intro s i a D r j m n hconf ha hs hrun hrise herror hsteps hD hle htarget hj hjD hm hn
  have count {k : Nat} (hk : k ≤ r) : PulsesAfter s i k (k * D / r) :=
    pulsesAfter_of_moveStart hconf ha ⟨hs, hrun, hrise, herror, hsteps, hD, hle, htarget⟩ hk
  obtain ⟨hmr, hmcount, hmprev⟩ := pulse_falls_on_tick hD hle hj hjD.le hm
  obtain ⟨hnr, hncount, hnprev⟩ := pulse_falls_on_tick hD hle (Nat.le_add_left 1 j) hjD hn
  rw [Nat.add_sub_cancel] at hnprev
  exact ⟨hmprev ▸ count (by omega), hmcount ▸ count hmr, hnprev ▸ count (by omega), hncount ▸ count hnr,
    pulse_gap hD hle hm hn⟩

end Sys2Proof.Machine

/-! The Axis Registry (43_registry.md): SETUP, and the settings records that SAVE_SETTINGS writes and RESTORE_SETTINGS reads. -/

namespace Sys2Proof.Machine

/-! ### When the registry operations are accepted -/

section Registry

variable {s : State} {f off : Word}

theorem execSetup_accepts (hconf : s.registry.configured = false) (hf : f ≠ 0) :
    execSetup f s = .next (State.respond { s with registry := { configured := true, frequency := f } } true 0) := by
  rw [execSetup, hconf, if_neg Bool.false_ne_true, if_neg hf, succeedOp]

theorem execSetup_refuses (h : s.registry.configured = true ∨ f = 0) : execSetup f s = .next (s.respond false 0) := by
  rcases h with hconf | rfl
  · rw [execSetup, if_pos hconf, failOp]
  · rw [execSetup, if_pos rfl, ite_self, failOp]

/-- The settings block of n axes is 11 * n bytes (R192). -/
theorem State.settingsBytes_eq (s : State) : s.settingsBytes = 11 * s.numAxes := rfl

theorem execSaveSettings_accepts (hfits : off.toNat + 11 * s.numAxes ≤ s.params.storeSize) :
    execSaveSettings off s =
      .next (State.respond { s with store := s.store.writeBytes off.toNat (encodeSettings s.axes) } true
        (BitVec.ofNat 32 (off.toNat + 11 * s.numAxes))) := by
  rw [execSaveSettings, s.settingsBytes_eq, if_neg (not_lt.mpr hfits), succeedOp]

theorem execSaveSettings_refuses (hpast : s.params.storeSize < off.toNat + 11 * s.numAxes) :
    execSaveSettings off s = .next (s.respond false 0) := by
  rw [execSaveSettings, s.settingsBytes_eq, if_pos hpast, failOp]

/-- No axis is busy when none is in a busy run state (R42, R194). -/
theorem anyBusy_eq_false_of_states {axes : List Axis}
    (h : ∀ a ∈ axes, a.state ≠ .moving ∧ a.state ≠ .homingSeek ∧ a.state ≠ .homingBackoff) : anyBusy axes = false := by
  refine anyBusy_eq_false_iff.mpr fun a ha => Bool.eq_false_iff.mpr fun hbusy => ?_
  obtain ⟨hmove, hseek, hback⟩ := h a ha
  rcases RunState.busy_iff.mp hbusy with hs | hs | hs
  · exact hmove hs
  · exact hseek hs
  · exact hback hs

theorem execRestoreSettings_accepts (hidle : anyBusy s.axes = false)
    (hfits : off.toNat + 11 * s.numAxes ≤ s.params.storeSize) :
    execRestoreSettings off s =
      .next (State.respond { s with axes := restoreAxes s.store off.toNat s.axes } true
        (BitVec.ofNat 32 (off.toNat + 11 * s.numAxes))) := by
  rw [execRestoreSettings, hidle, if_neg Bool.false_ne_true, s.settingsBytes_eq, if_neg (not_lt.mpr hfits), succeedOp]

theorem execRestoreSettings_refuses (hpast : s.params.storeSize < off.toNat + 11 * s.numAxes) :
    execRestoreSettings off s = .next (s.respond false 0) := by
  rw [execRestoreSettings, s.settingsBytes_eq, if_pos hpast, ite_self, failOp]

end Registry

/-! ### The records -/

section Records

variable {axes : List Axis} {i : Nat} {a : Axis}

/-- Every byte of the record of a built axis lies in the settings block (R83, R192). -/
theorem record_in_block (ha : axes[i]? = some a) {k : Nat} (hk : k < 11) : 11 * i + k < 11 * axes.length := by
  have hi := (List.getElem?_eq_some_iff.mp ha).1
  omega

/-- The saved block holds the record of axis i at offset + 11 * i (R192). -/
theorem read_writeBytes_encodeSettings {m : Memory} (hm : m.wf = true) (off : Nat) (ha : axes[i]? = some a) (k : Nat)
    (hk : k < (encodeRecord a.config).length) :
    (m.writeBytes off (encodeSettings axes)).read (off + 11 * i + k) = (encodeRecord a.config)[k] := by
  have hblock : recordBytes * i + k < (encodeSettings axes).length := by
    simpa [recordBytes] using record_in_block ha hk
  calc (m.writeBytes off (encodeSettings axes)).read (off + 11 * i + k)
      = (encodeSettings axes)[recordBytes * i + k] := by
        rw [Nat.add_assoc]
        exact Memory.read_writeBytes_inside m off _ hm _ hblock
    _ = (encodeRecord a.config)[k] := getElem_encodeSettings axes i k hk a ha hblock

theorem read_writeBytes_encodeSettings_outside (m : Memory) (axes : List Axis) {off o : Nat}
    (ho : o < off ∨ off + 11 * axes.length ≤ o) : (m.writeBytes off (encodeSettings axes)).read o = m.read o :=
  Memory.read_writeBytes_outside m off _ o (by rwa [length_encodeSettings])

theorem stopModeByte_eq (m : StopMode) : stopModeByte m = if m = .hold then 0 else 1 := by cases m <;> rfl

theorem directionByte_eq (d : Direction) : directionByte d = if d = .plus then 0 else 1 := by cases d <;> rfl

/-- RESTORE_SETTINGS reads an axis's configuration back from a store that holds its record (R195). -/
theorem getElem?_restoreAxes_of_record {m : Memory} {off : Nat} {c : AxisConfig} (ha : axes[i]? = some a)
    (hrecord : ∀ k (hk : k < (encodeRecord c).length), m.read (off + 11 * i + k) = (encodeRecord c)[k]) :
    (restoreAxes m off axes)[i]? = some { a with config := c } := by
  have hdecode : (decodeRecord fun k => m.read (off + recordBytes * i + k)) = c := decodeRecord_encodeRecord c _ hrecord
  rw [getElem?_restoreAxes, ha, hdecode, Option.map_some]

end Records

/-! ### The obligations of the Axis Registry -/

/-- Settles O20: the accepted block is read back record by record, and a run of bytes leaves the others alone. -/
theorem saveWritesTheRecords : Obligations.SaveWritesTheRecords := by
  refine fun s off x hwf => ⟨decode_opEncoding 0 rfl, fun hfits hsize => ?_, execSaveSettings_refuses⟩
  refine ⟨_, _, execSaveSettings_accepts hfits, toNat_ofNat_word (by omega), ⟨rfl, rfl⟩, fun i a ha => ?_,
    fun o => read_writeBytes_encodeSettings_outside s.store s.axes, rfl, rfl, rfl, rfl, rfl, rfl, rfl, rfl⟩
  have hread (k : Nat) (hk : k < 11) := read_writeBytes_encodeSettings hwf off.toNat ha k hk
  rw [← stopModeByte_eq, ← directionByte_eq]
  exact ⟨hread 0 (by decide), hread 1 (by decide), hread 2 (by decide), hread 3 (by decide), hread 4 (by decide),
    hread 5 (by decide), hread 6 (by decide), hread 7 (by decide), hread 8 (by decide), hread 9 (by decide),
    hread 10 (by decide)⟩

/-- Settles O21: each axis is rebuilt with the decoded record as its configuration; a busy axis or the bound refuses. -/
theorem restoreReadsTheRecords : Obligations.RestoreReadsTheRecords := by
  refine fun s off x => ⟨decode_opEncoding 0 rfl, fun hidle hfits hsize => ?_, fun hfails => ?_⟩
  · refine ⟨_, _, execRestoreSettings_accepts (anyBusy_eq_false_of_states hidle) hfits, toNat_ofNat_word (by omega),
      ⟨rfl, rfl⟩, length_restoreAxes _ _ _, fun i a ha => ?_, ⟨rfl, rfl, rfl, rfl, rfl, rfl, rfl, rfl⟩⟩
    have hb := getElem?_restoreAxes s.store off.toNat s.axes i
    rw [ha, Option.map_some] at hb
    refine ⟨_, hb, ⟨rfl, rfl, rfl, rfl, rfl, rfl, rfl, rfl, rfl, rfl⟩, rfl, rfl, fun byte hbyte => ?_⟩
    obtain rfl := funext hbyte
    exact ⟨rfl, rfl, rfl, rfl, rfl⟩
  · rcases hfails with ⟨a, ha, hs⟩ | hpast
    · exact execRestoreSettings_busy ha (RunState.busy_iff.mpr hs) off
    · exact execRestoreSettings_refuses hpast

/-- Settles O22: the record of O20 stands in the later store, and `decodeRecord` inverts `encodeRecord`. -/
theorem saveThenRestoreRoundTrip : Obligations.SaveThenRestoreRoundTrip := by
  intro s t u v off hwf hfits _ hsave hcount hparams hbytes hidle hrestore i a ha
  obtain rfl := Host.Outcome.next.inj ((execSaveSettings_accepts hfits).symm.trans hsave)
  have hfits' : off.toNat + 11 * u.numAxes ≤ u.params.storeSize := by rwa [hcount, hparams]
  obtain rfl := Host.Outcome.next.inj
    ((execRestoreSettings_accepts (anyBusy_eq_false_of_states hidle) hfits').symm.trans hrestore)
  have hi : i < u.numAxes := by
    rw [hcount]
    exact (List.getElem?_eq_some_iff.mp ha).1
  refine ⟨_, getElem?_restoreAxes_of_record (List.getElem?_eq_getElem hi) fun k hk => ?_, rfl⟩
  have hblock : 11 * i + k < 11 * s.numAxes := record_in_block ha hk
  rw [hbytes _ (by omega) (by omega)]
  exact read_writeBytes_encodeSettings hwf off.toNat ha k hk

/-- Settles O19: SETUP's two refusals are the negation of what it accepts. -/
theorem setupConfiguresOnce : Obligations.SetupConfiguresOnce := fun _ _ _ =>
  ⟨decode_opEncoding 0 rfl,
    fun hconf hf => ⟨_, execSetup_accepts hconf hf, rfl, rfl, ⟨rfl, rfl⟩, rfl, rfl, rfl, rfl, rfl, rfl, rfl, rfl⟩,
    execSetup_refuses⟩

end Sys2Proof.Machine

/-! Line input (44_line_input.md): what the byte accumulator makes of a run of RX bytes, how the bytes wait while a Message is with the
handler, and what a line that is typed byte by byte runs. -/

namespace Sys2Proof

/-! ### The bytes of a line -/

theorem Param.keyword_printable (p : Param) : p.keyword.all printable = true := by cases p <;> decide

theorem LineType.keyword_printable (t : LineType) : t.keyword.all printable = true := by cases t <;> decide

/-- Printable tokens make a printable line: a space is printable (R76, R77). -/
theorem joinTokens_printable {toks : List (List Byte)} (h : ∀ tok ∈ toks, tok.all printable = true) :
    (joinTokens toks).all printable = true := by
  induction toks with
  | nil => rfl
  | cons tok toks ih =>
    obtain ⟨htok, htoks⟩ := List.forall_mem_cons.mp h
    cases toks with
    | nil => exact htok
    | cons next toks =>
      have hspace : printable 0x20#8 = true := by decide
      rw [joinTokens, List.all_append, List.all_cons, htok, hspace, ih htoks]
      rfl

theorem lineEncoding_printable {t : LineType} {values : List (List Byte)} {line : List Byte}
    (hvalues : ∀ tok ∈ values, tok.all printable = true) (h : lineEncoding t values = .line line) :
    line.all printable = true := by
  obtain rfl := Encoding.line.inj h
  exact joinTokens_printable (List.forall_mem_cons.mpr ⟨t.keyword_printable, hvalues⟩)

/-- The line of an encoding is a run of printable bytes (R76). -/
theorem encode_line_printable {i : Instr} {line : List Byte} (h : encode i = .line line) : line.all printable = true := by
  cases i with
  | lineGo | lineSet | lineGet | lineHome | lineState | lineAlive =>
    exact lineEncoding_printable (by simp [decInt_printable, Param.keyword_printable, -List.all_eq_true]) h
  | moveAbs | moveRel | home | setPos | axisReset | getPos | busy | checkFinished | getState | getMaxvel | setMaxvel
  | getAccel | setAccel | getStopmode | setStopmode | getHomedir | getCanhome | setup | getAxis | saveSettings
  | restoreSettings | tick | rx | reply | handlerDone => cases h

/-- A line that decodes is not empty: it has a keyword (R233, R234). -/
theorem ne_nil_of_decodeLine {n : Nat} {line : List Byte} {i : Instr} (h : decodeLine n line = .ok i) : line ≠ [] := by
  rintro rfl
  cases h

/-- A printable byte is neither CR nor LF (decision D34). -/
theorem ne_cr_lf_of_printable {b : Byte} (h : printable b = true) : b ≠ 0x0D#8 ∧ b ≠ 0x0A#8 := by
  constructor <;> rintro rfl <;> cases h

theorem printable_of_range {b : Byte} (hlow : 0x20#8 ≤ b) (hhigh : b ≤ 0x7E#8) : printable b = true := by
  simp [printable, hlow, hhigh]

theorem printable_eq_false {b : Byte} (h : b < 0x20#8 ∨ 0x7E#8 < b) : printable b = false := by
  rcases h with h | h
  · simp [printable, BitVec.not_le.mpr h]
  · simp [printable, BitVec.not_le.mpr h]

end Sys2Proof

namespace Sys2Proof.Machine

/-! ### One reply line -/

/-- `reply` frames one line and changes TX alone (R260). -/
theorem State.reply_repliesOnly (s : State) (m : Marker) (text : List Byte) :
    RepliesOnly s (s.reply m text) (markerBytes m) text where
  tx        := by simp [State.reply, State.tx, replyBytes]
  params    := rfl
  registry  := rfl
  axes      := rfl
  parser    := rfl
  store     := rfl
  handler   := rfl
  inbox     := rfl
  steps     := rfl
  messages  := rfl
  responses := rfl

/-- An overflow empties the buffer, sets discard mode and sends one ERROR LINE TOO LONG (R213). -/
theorem State.overflow_repliesOnly (s : State) :
    RepliesOnly { s with parser := { s.parser with buf := [], discarding := true } } s.overflow (ascii "ERROR")
      (ascii "LINE TOO LONG") :=
  State.reply_repliesOnly _ .error (errorText .lineTooLong)

theorem State.emptyBuffer_eq_self {s : State} (h : s.parser.buf = []) : s.emptyBuffer = s := by
  rw [State.emptyBuffer, ← h]

/-! ### One RX byte -/

theorem isTerminator_eq_false {b : Byte} (h : b ≠ 0x0D#8 ∧ b ≠ 0x0A#8) : isTerminator b = false := by
  simp [isTerminator, h]

section Rx

variable {s : State} {b : Byte}

/-- RX does not occur while a Message is with the handler (R210, log 4). -/
theorem execRx_busy (hbusy : s.parser.handlerBusy = true) (b : Byte) : execRx b s = .next s := by
  simp [execRx, hbusy]

theorem execRx_eq_terminator (hbusy : s.parser.handlerBusy = false) (hb : isTerminator b = true) :
    execRx b s = terminator s := by
  simp [execRx, hbusy, hb]

theorem execRx_eq_printableByte (hbusy : s.parser.handlerBusy = false) (hb : printable b = true) :
    execRx b s = printableByte b s := by
  simp [execRx, hbusy, isTerminator_eq_false (ne_cr_lf_of_printable hb), hb]

/-- A byte that is neither printable nor a terminator is dropped (R215). -/
theorem execRx_dropped (hbusy : s.parser.handlerBusy = false) (hb : isTerminator b = false) (hp : printable b = false) :
    execRx b s = .next s := by
  simp [execRx, hbusy, hb, hp]

/-- A terminator ends discard mode and does nothing else (R214). -/
theorem terminator_discarding (hdisc : s.parser.discarding = true) :
    terminator s = .next { s with parser := { s.parser with discarding := false } } := by
  simp [terminator, hdisc]

/-- An empty line is ignored (R216). -/
theorem terminator_empty (hdisc : s.parser.discarding = false) (hbuf : s.parser.buf = []) : terminator s = .next s := by
  simp [terminator, hdisc, hbuf]

/-- Nothing is kept in discard mode (R211). -/
theorem printableByte_discarding (hdisc : s.parser.discarding = true) : printableByte b s = .next s := by
  simp [printableByte, hdisc]

theorem printableByte_kept (hdisc : s.parser.discarding = false) (hroom : s.parser.buf.length < s.params.cmdBufLen) :
    printableByte b s = .next { s with parser := { s.parser with buf := s.parser.buf ++ [b] } } := by
  simp [printableByte, hdisc, hroom]

theorem printableByte_overflow (hdisc : s.parser.discarding = false) (hfull : s.params.cmdBufLen ≤ s.parser.buf.length) :
    printableByte b s = .next s.overflow := by
  simp [printableByte, hdisc, hfull]

/-- In discard mode only a terminator acts (R211, R215). -/
theorem execRx_discarding (hbusy : s.parser.handlerBusy = false) (hdisc : s.parser.discarding = true)
    (hb : isTerminator b = false) : execRx b s = .next s := by
  cases hp : printable b with
  | true => exact (execRx_eq_printableByte hbusy hp).trans (printableByte_discarding hdisc)
  | false => exact execRx_dropped hbusy hb hp

end Rx

/-! ### A run of RX bytes -/

section RxRun

variable {s : State} {bytes : List Byte}

theorem rxRun_cons {t : State} {b : Byte} (h : execRx b s = .next t) : rxRun (b :: bytes) s = rxRun bytes t := by
  rw [rxRun, h]

theorem rxRun_singleton (b : Byte) (s : State) : rxRun [b] s = execRx b s := by
  rw [rxRun]
  cases execRx b s <;> rfl

theorem rxRun_append {t : State} (h : rxRun bytes s = .next t) (more : List Byte) :
    rxRun (bytes ++ more) s = rxRun more t := by
  induction bytes generalizing s with
  | nil =>
    cases h
    rfl
  | cons b bytes ih =>
    rw [rxRun] at h
    split at h
    · next u hu => rw [List.cons_append, rxRun_cons hu, ih h]
    · cases h
    · cases h

/-- A run without a terminator is dropped in discard mode (R211, R215). -/
theorem rxRun_discarding (hbusy : s.parser.handlerBusy = false) (hdisc : s.parser.discarding = true)
    (hbytes : ∀ b ∈ bytes, isTerminator b = false) : rxRun bytes s = .next s := by
  induction bytes with
  | nil => rfl
  | cons b bytes ih =>
    obtain ⟨hb, hbytes⟩ := List.forall_mem_cons.mp hbytes
    rw [rxRun_cons (execRx_discarding hbusy hdisc hb), ih hbytes]

/-- A run without a terminator whose printable bytes have room appends exactly these (R211, R215, R217). -/
theorem rxRun_kept (hbusy : s.parser.handlerBusy = false) (hdisc : s.parser.discarding = false)
    (hbytes : ∀ b ∈ bytes, isTerminator b = false)
    (hroom : s.parser.buf.length + (bytes.filter printable).length ≤ s.params.cmdBufLen) :
    rxRun bytes s = .next { s with parser := { s.parser with buf := s.parser.buf ++ bytes.filter printable } } := by
  induction bytes generalizing s with
  | nil => simp [rxRun]
  | cons b bytes ih =>
    obtain ⟨hb, hbytes⟩ := List.forall_mem_cons.mp hbytes
    cases hp : printable b with
    | true =>
      rw [List.filter_cons_of_pos hp, List.length_cons] at hroom
      have hbyte := (execRx_eq_printableByte hbusy hp).trans (printableByte_kept hdisc (by omega))
      calc rxRun (b :: bytes) s = rxRun bytes _ := rxRun_cons hbyte
        _ = .next _ := ih hbusy hdisc hbytes (by simp only [List.length_append, List.length_singleton]; omega)
        _ = _ := by rw [List.filter_cons_of_pos hp, List.append_assoc, List.singleton_append]
    | false =>
      rw [List.filter_cons_of_neg (by simp [hp])] at hroom ⊢
      rw [rxRun_cons (execRx_dropped hbusy hb hp), ih hbusy hdisc hbytes hroom]

/-- A run without a terminator whose printable bytes do not fit overflows once; what was kept before does not matter (R213, R217). -/
theorem rxRun_overflow (hbusy : s.parser.handlerBusy = false) (hdisc : s.parser.discarding = false)
    (hbytes : ∀ b ∈ bytes, isTerminator b = false) (hbuf : s.parser.buf.length ≤ s.params.cmdBufLen)
    (hover : s.params.cmdBufLen < s.parser.buf.length + (bytes.filter printable).length) :
    rxRun bytes s = .next s.overflow := by
  induction bytes generalizing s with
  | nil => simp only [List.filter_nil, List.length_nil] at hover; omega
  | cons b bytes ih =>
    obtain ⟨hb, hbytes⟩ := List.forall_mem_cons.mp hbytes
    cases hp : printable b with
    | true =>
      rw [List.filter_cons_of_pos hp, List.length_cons] at hover
      by_cases hfull : s.params.cmdBufLen ≤ s.parser.buf.length
      · have hbyte := (execRx_eq_printableByte hbusy hp).trans (printableByte_overflow hdisc hfull)
        exact (rxRun_cons hbyte).trans (rxRun_discarding (s := s.overflow) hbusy rfl hbytes)
      · have hbyte := (execRx_eq_printableByte hbusy hp).trans (printableByte_kept hdisc (by omega))
        have hlen : (s.parser.buf ++ [b]).length = s.parser.buf.length + 1 := List.length_append
        have hbuf' : (s.parser.buf ++ [b]).length ≤ s.params.cmdBufLen := by omega
        have hover' : s.params.cmdBufLen < (s.parser.buf ++ [b]).length + (bytes.filter printable).length := by omega
        exact (rxRun_cons hbyte).trans (ih hbusy hdisc hbytes hbuf' hover')
    | false =>
      rw [List.filter_cons_of_neg (by simp [hp])] at hover
      rw [rxRun_cons (execRx_dropped hbusy hb hp), ih hbusy hdisc hbytes hbuf hover]

/-- A printable line that fits an empty buffer, and then a terminator, run the line's instruction (R212, R217, R232). -/
theorem rxRun_line {line : List Byte} {b : Byte} {i : Instr} (hbusy : s.parser.handlerBusy = false)
    (hdisc : s.parser.discarding = false) (hbuf : s.parser.buf = []) (hline : line.all printable = true)
    (hfits : line.length ≤ s.params.cmdBufLen) (hb : isTerminator b = true) (hi : decodeLine s.numAxes line = .ok i) :
    rxRun (line ++ [b]) s = exec i s := by
  have hkept : line.filter printable = line := List.filter_eq_self.mpr (List.all_eq_true.mp hline)
  have hbytes : ∀ c ∈ line, isTerminator c = false := fun c hc =>
    isTerminator_eq_false (ne_cr_lf_of_printable (List.all_eq_true.mp hline c hc))
  have hrun : rxRun line s = .next { s with parser := { s.parser with buf := line } } := by
    have h := rxRun_kept hbusy hdisc hbytes (by rwa [hbuf, hkept, List.length_nil, Nat.zero_add])
    rwa [hbuf, hkept, List.nil_append] at h
  calc rxRun (line ++ [b]) s = execRx b { s with parser := { s.parser with buf := line } } := by
        rw [rxRun_append hrun, rxRun_singleton]
    _ = exec i s.emptyBuffer := execRx_terminator hb hbusy hdisc (ne_nil_of_decodeLine hi) hi
    _ = exec i s := by rw [State.emptyBuffer_eq_self hbuf]

end RxRun

/-! ### RX bytes that wait -/

theorem Input.isRx_eq_false {i : Input} (h : ∀ b, i ≠ .port (.rx b)) : i.isRx = false := by
  cases i with
  | port p => exact held_port_eq_false (busy := true) fun _ b hp => h b (congrArg Input.port hp)
  | limit | powerOn | handler => rfl

/-- While a Message is with the handler the first input that is no RX byte passes the bytes before it (R210, log 4). -/
theorem takeInput_passes_rx {i : Input} (hi : i.isRx = false) (bytes : List Byte) (rest : List Input) :
    takeInput true ((bytes.map fun b => Input.port (.rx b)) ++ i :: rest) =
      some (i, (bytes.map fun b => Input.port (.rx b)) ++ rest) := by
  induction bytes with
  | nil => exact takeInput_head hi
  | cons b bytes ih => simp [takeInput, Input.isRx, ih]

/-- RX bytes alone are not enabled while a Message is with the handler (R210). -/
theorem takeInput_only_rx (bytes : List Byte) : takeInput true (bytes.map fun b => Input.port (.rx b)) = none := by
  induction bytes with
  | nil => rfl
  | cons b bytes ih => simp [takeInput, Input.isRx, ih]

/-! ### The obligations of line input -/

/-- Settles O33: the encoding is a printable line that decodes to the instruction, so the bytes run it, and a line always answers. -/
theorem typedLineRunsItsInstruction : Obligations.TypedLineRunsItsInstruction := by
  intro s i line b hbusy hdisc hbuf hwf hline hfits hb
  have hdecode : decodeLine s.numAxes line = .ok i := by
    have h := decode_encode hwf
    rwa [hline] at h
  obtain ⟨t, ht⟩ := processCommand_next line s
  have hexec : exec i s = .next t := (processCommand_ok hdecode).symm.trans ht
  exact ⟨t, (rxRun_line hbusy hdisc hbuf (encode_line_printable hline) hfits (isTerminator_of_cr_or_lf hb) hdecode).trans hexec,
    hexec⟩

/-- Settles O9: a busy handler holds back the RX bytes alone, and bytes and lines act only without a Message at the handler. -/
theorem bytesWaitWhileHandlerIsBusy : Obligations.BytesWaitWhileHandlerIsBusy := by
  refine ⟨fun s bytes i rest hbusy hi hinbox => ?_, fun s bytes hbusy hinbox => ?_, fun s hbusy => ?_⟩
  · rw [step, stepInput, hbusy, hinbox, takeInput_passes_rx (Input.isRx_eq_false hi)]
  · rw [step, stepInput, hbusy, hinbox, takeInput_only_rx]
  · exact ⟨execRx_busy hbusy, fun _ _ => whenHandlerIdle_busy hbusy, fun _ _ _ => whenHandlerIdle_busy hbusy,
      fun _ _ => whenHandlerIdle_busy hbusy, fun _ => whenHandlerIdle_busy hbusy, fun _ => whenHandlerIdle_busy hbusy,
      whenHandlerIdle_busy hbusy⟩

/-- Settles O32: the printable bytes are appended while they fit, and the first that does not fit overflows. -/
theorem bufferHoldsTheLineSoFar : Obligations.BufferHoldsTheLineSoFar := by
  intro s bytes hbusy hdisc hbuf hbytes
  have hfilter : (bytes.filter fun b => decide (0x20#8 ≤ b ∧ b ≤ 0x7E#8)) = bytes.filter printable := by
    simp only [Bool.decide_and]
  have hterm : ∀ b ∈ bytes, isTerminator b = false := fun b hb => isTerminator_eq_false (hbytes b hb)
  rw [hfilter]
  constructor
  · intro hfits
    have h := rxRun_kept hbusy hdisc hterm (by rwa [hbuf, List.length_nil, Nat.zero_add])
    rwa [hbuf, List.nil_append] at h
  · intro hover
    exact ⟨_, rxRun_overflow hbusy hdisc hterm (by simp [hbuf]) (by rwa [hbuf, List.length_nil, Nat.zero_add]),
      s.overflow_repliesOnly⟩

/-- Settles O27: a printable byte is kept, dropped or overflows the buffer; another byte is dropped or is a terminator. -/
theorem bytesAreAccumulated : Obligations.BytesAreAccumulated := by
  intro s b hbusy
  refine ⟨fun hlow hhigh => ?_, fun hout hcr hlf => ?_, fun hterm => ?_⟩
  · have hbyte := execRx_eq_printableByte hbusy (printable_of_range hlow hhigh)
    exact ⟨fun hdisc => hbyte.trans (printableByte_discarding hdisc),
      fun hdisc hroom => hbyte.trans (printableByte_kept hdisc hroom),
      fun hdisc hfull => ⟨_, hbyte.trans (printableByte_overflow hdisc hfull), s.overflow_repliesOnly⟩⟩
  · exact execRx_dropped hbusy (isTerminator_eq_false ⟨hcr, hlf⟩) (printable_eq_false hout)
  · have hbyte := execRx_eq_terminator hbusy (isTerminator_of_cr_or_lf hterm)
    exact ⟨fun hdisc => hbyte.trans (terminator_discarding hdisc), fun hdisc hbuf => hbyte.trans (terminator_empty hdisc hbuf)⟩

end Sys2Proof.Machine

/-! The command parser (45_command_parser.md): what one value token is read as, the walk of a line's tokens against the grammar of its
keyword, and the Message or the ERROR line that follows. -/

namespace Sys2Proof.Machine

/-! ### The tables, in the words of the statements -/

/-- The message-type table as R230 prints it. -/
theorem lineShapes_eq_messageTable :
    lineShapes = messageTable.map fun entry => (entry.keyword, entry.type.enum, entry.kinds) := by decide

theorem mem_lineShapes {entry : MessageEntry} (h : entry ∈ messageTable) :
    (entry.keyword, entry.type.enum, entry.kinds) ∈ lineShapes := by
  rw [lineShapes_eq_messageTable]
  exact List.mem_map_of_mem h

/-- No grammar entry begins with a parameter name, so that R236 always finds an axis before it (R230). -/
theorem kinds_head_ne_parameterName {entry : MessageEntry} (h : entry ∈ messageTable) :
    entry.kinds.head? ≠ some .parameterName := by
  revert h
  revert entry
  decide

/-- The names of R231 are the keywords of the parameters. -/
theorem mem_paramNames {tok : List Byte} : tok ∈ paramNames ↔ ∃ p : Param, p.keyword = tok := by
  constructor
  · have hnames : ∀ name ∈ paramNames, name = Param.maxvel.keyword ∨ name = Param.accel.keyword ∨
        name = Param.stopmode.keyword := by decide
    intro h
    rcases hnames tok h with rfl | rfl | rfl <;> exact ⟨_, rfl⟩
  · rintro ⟨p, rfl⟩
    cases p <;> decide

theorem paramNames_enum (p : Param) : paramNames[p.enum.toNat]? = some p.keyword := by cases p <;> decide

/-- A parameter is stored as its place in R231's table (R79). -/
theorem paramNames_getElem?_eq_some {w : Word} {tok : List Byte} :
    paramNames[w.toNat]? = some tok ↔ ∃ p : Param, p.keyword = tok ∧ p.enum = w := by
  constructor
  · intro h
    obtain ⟨p, rfl⟩ := mem_paramNames.mp (List.mem_of_getElem? h)
    have hnodup : paramNames.Nodup := by decide
    have hlt : p.enum.toNat < paramNames.length := (List.getElem?_eq_some_iff.mp (paramNames_enum p)).1
    exact ⟨p, rfl, BitVec.eq_of_toNat_eq ((List.getElem?_inj hlt hnodup).mp ((paramNames_enum p).trans h.symm))⟩
  · rintro ⟨p, rfl, rfl⟩
    exact paramNames_enum p

theorem keyword_inj {p q : Param} : p.keyword = q.keyword ↔ p = q := by
  constructor
  · intro h
    have hentry := congrArg lookupParam h
    rw [lookupParam_keyword, lookupParam_keyword] at hentry
    exact congrArg ParamEntry.param (Option.some.inj hentry)
  · exact congrArg Param.keyword

theorem lookupParam_eq_none {tok : List Byte} (h : tok ∉ paramNames) : lookupParam tok = none := by
  cases hl : lookupParam tok with
  | none => rfl
  | some e =>
    have hkeywords : ∀ e ∈ paramTable, e.keyword ∈ paramNames := by decide
    obtain ⟨he, rfl⟩ := lookupParam_eq_some.mp hl
    exact absurd (hkeywords e he) h

/-! ### One value token (R235, R236) -/

/-- What the walk makes of one value token, `axis` being the first field of the line. -/
def readValue (n : Nat) (axis : Word) (kind : ValueKind) (tok : List Byte) : Except ProtocolError Word :=
  match kind with
  | .integer => (parseInteger tok).elim (.error .badInteger) .ok
  | .parameterName =>
    (lookupParam tok).elim (.error .unknownParameter) fun e =>
      if validAxisField n axis then .ok e.param.enum else .error .badAxis

section Value

variable {n : Nat} {axis v : Word} {kind : ValueKind} {kinds : List ValueKind} {axisTok tok : List Byte}
  {toks : List (List Byte)} {done : List Word} {e : ProtocolError}

theorem validAxisField_iff : validAxisField n axis = true ↔ 0 ≤ axis.toInt ∧ axis.toInt < n := by
  simp

theorem validAxisField_eq_false : validAxisField n axis = false ↔ axis.toInt < 0 ∨ (n : Int) ≤ axis.toInt := by
  rw [Bool.and_eq_false_iff, decide_eq_false_iff_not, decide_eq_false_iff_not, not_le, not_lt]

@[simp] theorem readValue_integer_none (h : parseInteger tok = none) :
    readValue n axis .integer tok = .error .badInteger := by
  simp [readValue, h]

@[simp] theorem readValue_integer_some (h : parseInteger tok = some v) : readValue n axis .integer tok = .ok v := by
  simp [readValue, h]

@[simp] theorem readValue_unknown (h : tok ∉ paramNames) :
    readValue n axis .parameterName tok = .error .unknownParameter := by
  simp [readValue, lookupParam_eq_none h]

@[simp] theorem readValue_keyword (n : Nat) (axis : Word) (p : Param) :
    readValue n axis .parameterName p.keyword = if validAxisField n axis then .ok p.enum else .error .badAxis := by
  simp [readValue, lookupParam_keyword]

/-- The walk reads a token and goes on, or stops with the token's failure (R232). -/
theorem walkValues_cons (h : kind = .parameterName → done.head? = some axis) :
    walkValues n (kind :: kinds) (tok :: toks) done =
      (readValue n axis kind tok).bind fun v => walkValues n kinds toks (done ++ [v]) := by
  cases kind with
  | integer => cases hp : parseInteger tok <;> simp [walkValues, hp, Except.bind]
  | parameterName =>
    obtain ⟨fields, rfl⟩ := List.head?_eq_some_iff.mp (h rfl)
    by_cases htok : tok ∈ paramNames
    · obtain ⟨p, rfl⟩ := mem_paramNames.mp htok
      rw [readValue_keyword]
      cases hv : validAxisField n axis <;> simp [walkValues, lookupParam_keyword, hv, Except.bind]
    · simp [walkValues, lookupParam_eq_none htok, readValue_unknown htok, Except.bind]

/-- A token is read exactly as `TakenAs` says. -/
theorem readValue_eq_ok (haxis : kind = .parameterName → parseInteger axisTok = some axis) :
    readValue n axis kind tok = .ok v ↔ TakenAs n axisTok tok kind v := by
  cases kind with
  | integer => cases hp : parseInteger tok <;> simp [TakenAs, hp]
  | parameterName =>
    simp only [TakenAs, haxis rfl, paramNames_getElem?_eq_some, Option.some.injEq, exists_eq_left']
    rw [← validAxisField_iff]
    by_cases htok : tok ∈ paramNames
    · obtain ⟨p, rfl⟩ := mem_paramNames.mp htok
      rw [readValue_keyword]
      cases hv : validAxisField n axis <;> simp [keyword_inj]
    · have hno : ¬ ∃ p : Param, p.keyword = tok ∧ p.enum = v := fun ⟨p, hp, _⟩ => htok (mem_paramNames.mpr ⟨p, hp⟩)
      simp [readValue_unknown htok, hno]

/-- A token is refused exactly as `RefusedFor` says. -/
theorem readValue_eq_error (haxis : kind = .parameterName → parseInteger axisTok = some axis) :
    readValue n axis kind tok = .error e ↔ RefusedFor n axisTok tok kind e := by
  cases kind with
  | integer => cases hp : parseInteger tok <;> simp [RefusedFor, hp, @eq_comm _ e]
  | parameterName =>
    simp only [RefusedFor, haxis rfl, Option.some.injEq, exists_eq_left']
    rw [← validAxisField_eq_false]
    by_cases htok : tok ∈ paramNames
    · obtain ⟨p, rfl⟩ := mem_paramNames.mp htok
      rw [readValue_keyword]
      cases hv : validAxisField n axis <;> simp [htok, @eq_comm _ e]
    · simp [readValue_unknown htok, htok, @eq_comm _ e]

end Value

/-! ### The first failure of a walk (R232) -/

/-- The values of a line fail for this reason: every value token before some position is taken, and the one there is missing, refused or
in surplus. -/
def FirstFailure (n : Nat) (axisTok : List Byte) (kinds : List ValueKind) (values : List (List Byte)) (e : ProtocolError) : Prop :=
  ∃ j : Nat, (∀ k < j, ∃ kind tok v, kinds[k]? = some kind ∧ values[k]? = some tok ∧ TakenAs n axisTok tok kind v) ∧
    ((∃ kind, kinds[j]? = some kind ∧ values[j]? = none ∧ e = .tooFewFields) ∨
      (∃ kind tok, kinds[j]? = some kind ∧ values[j]? = some tok ∧ RefusedFor n axisTok tok kind e) ∨
      (∃ tok, kinds[j]? = none ∧ values[j]? = some tok ∧ e = .tooManyFields))

/-- The values of a line are read as these fields, one for each expected value. -/
structure ReadsAs (n : Nat) (axisTok : List Byte) (kinds : List ValueKind) (values : List (List Byte)) (fields : List Word) : Prop where
  values_length : values.length = kinds.length
  fields_length : fields.length = kinds.length
  taken : ∀ j kind tok, kinds[j]? = some kind → values[j]? = some tok → TakenAs n axisTok tok kind (fieldAt fields j)

section Walk

variable {n : Nat} {axis : Word} {kind : ValueKind} {kinds : List ValueKind} {axisTok tok : List Byte}
  {toks values : List (List Byte)} {done fields : List Word} {e : ProtocolError}

@[simp] theorem not_firstFailure_nil_nil : ¬ FirstFailure n axisTok [] [] e := by
  simp [FirstFailure]

@[simp] theorem firstFailure_nil_cons : FirstFailure n axisTok [] (tok :: toks) e ↔ e = .tooManyFields := by
  constructor
  · rintro ⟨j, -, ⟨_, h, -⟩ | ⟨_, _, h, -⟩ | ⟨_, -, -, he⟩⟩
    · cases h
    · cases h
    · exact he
  · exact fun he => ⟨0, nofun, .inr (.inr ⟨tok, rfl, rfl, he⟩)⟩

@[simp] theorem firstFailure_cons_nil : FirstFailure n axisTok (kind :: kinds) [] e ↔ e = .tooFewFields := by
  constructor
  · rintro ⟨j, -, ⟨_, -, -, he⟩ | ⟨_, _, -, h, -⟩ | ⟨_, -, h, -⟩⟩
    · exact he
    · cases h
    · cases h
  · exact fun he => ⟨0, nofun, .inl ⟨kind, rfl, rfl, he⟩⟩

/-- The first failure is at the first token, or the first token is taken and the failure is behind it. -/
theorem firstFailure_cons_cons : FirstFailure n axisTok (kind :: kinds) (tok :: toks) e ↔
    RefusedFor n axisTok tok kind e ∨ (∃ v, TakenAs n axisTok tok kind v) ∧ FirstFailure n axisTok kinds toks e := by
  constructor
  · rintro ⟨_ | j, hbefore, hat⟩
    · left
      simpa using hat
    · right
      refine ⟨by simpa using hbefore 0 (by omega), j, fun k hk => ?_, by simpa using hat⟩
      simpa using hbefore (k + 1) (by omega)
  · rintro (h | ⟨⟨v, hv⟩, j, hbefore, hat⟩)
    · exact ⟨0, nofun, .inr (.inl ⟨kind, tok, rfl, rfl, h⟩)⟩
    · refine ⟨j + 1, fun k hk => ?_, by simpa using hat⟩
      cases k with
      | zero => exact ⟨kind, tok, v, rfl, rfl, hv⟩
      | succ k => simpa using hbefore k (by omega)

theorem readsAs_nil : ReadsAs n axisTok [] [] [] := ⟨rfl, rfl, nofun⟩

theorem ReadsAs.cons {v : Word} (hv : TakenAs n axisTok tok kind v) (h : ReadsAs n axisTok kinds toks fields) :
    ReadsAs n axisTok (kind :: kinds) (tok :: toks) (v :: fields) where
  values_length := congrArg (· + 1) h.values_length
  fields_length := congrArg (· + 1) h.fields_length
  taken j kind' tok' hkind htok := by
    cases j with
    | zero =>
      cases hkind
      cases htok
      exact hv
    | succ j => exact h.taken j kind' tok' hkind htok

/-- One position of the walk, for the failure: what holds behind a taken token holds with it. -/
theorem walkValues_cons_eq_error
    (haxis : kind = .parameterName → done.head? = some axis ∧ parseInteger axisTok = some axis)
    (hrest : ∀ v, TakenAs n axisTok tok kind v →
      (walkValues n kinds toks (done ++ [v]) = .error e ↔ FirstFailure n axisTok kinds toks e)) :
    walkValues n (kind :: kinds) (tok :: toks) done = .error e ↔
      FirstFailure n axisTok (kind :: kinds) (tok :: toks) e := by
  have hok (v : Word) := readValue_eq_ok (n := n) (tok := tok) (v := v) fun h => (haxis h).2
  rw [walkValues_cons fun h => (haxis h).1, firstFailure_cons_cons, ← readValue_eq_error fun h => (haxis h).2]
  simp only [← hok] at hrest ⊢
  cases hread : readValue n axis kind tok with
  | error r => simp [Except.bind]
  | ok v => simpa [Except.bind] using hrest v hread

/-- One position of the walk, for acceptance. -/
theorem walkValues_cons_eq_ok
    (haxis : kind = .parameterName → done.head? = some axis ∧ parseInteger axisTok = some axis)
    (hrest : ∀ v, TakenAs n axisTok tok kind v → walkValues n kinds toks (done ++ [v]) = .ok fields →
      ∃ more, fields = done ++ [v] ++ more ∧ ReadsAs n axisTok kinds toks more)
    (h : walkValues n (kind :: kinds) (tok :: toks) done = .ok fields) :
    ∃ more, fields = done ++ more ∧ ReadsAs n axisTok (kind :: kinds) (tok :: toks) more := by
  rw [walkValues_cons fun h => (haxis h).1] at h
  cases hread : readValue n axis kind tok with
  | error r => simp [hread, Except.bind] at h
  | ok v =>
    have hv := (readValue_eq_ok fun h => (haxis h).2).mp hread
    rw [hread] at h
    obtain ⟨more, rfl, hmore⟩ := hrest v hv h
    exact ⟨v :: more, by simp, hmore.cons hv⟩

/-- Behind the axis the walk fails exactly for the first failure. -/
theorem walkValues_eq_error (hdone : done.head? = some axis) (haxis : parseInteger axisTok = some axis) :
    walkValues n kinds toks done = .error e ↔ FirstFailure n axisTok kinds toks e := by
  induction kinds generalizing toks done with
  | nil => cases toks <;> simp [walkValues, eq_comm]
  | cons kind kinds ih =>
    cases toks with
    | nil => simp [walkValues, eq_comm]
    | cons tok toks =>
      exact walkValues_cons_eq_error (fun _ => ⟨hdone, haxis⟩) fun v _ => ih (by simp [hdone])

/-- Behind the axis a walk that is accepted has read every value. -/
theorem walkValues_eq_ok (hdone : done.head? = some axis) (haxis : parseInteger axisTok = some axis)
    (h : walkValues n kinds toks done = .ok fields) :
    ∃ more, fields = done ++ more ∧ ReadsAs n axisTok kinds toks more := by
  induction kinds generalizing toks done with
  | nil =>
    cases toks with
    | nil =>
      cases h
      exact ⟨[], (List.append_nil _).symm, readsAs_nil⟩
    | cons tok toks => cases h
  | cons kind kinds ih =>
    cases toks with
    | nil => simp [walkValues] at h
    | cons tok toks =>
      exact walkValues_cons_eq_ok (fun _ => ⟨hdone, haxis⟩) (fun v _ => ih (by simp [hdone])) h

/-- A line's values are rejected exactly for their first failure (R232). -/
theorem walkValues_line_eq_error (hkinds : kinds.head? ≠ some .parameterName) :
    walkValues n kinds values [] = .error e ↔ FirstFailure n (values.headD []) kinds values e := by
  cases kinds with
  | nil => cases values <;> simp [walkValues, eq_comm]
  | cons kind kinds =>
    cases values with
    | nil => simp [walkValues, eq_comm]
    | cons tok toks =>
      obtain rfl : kind = .integer := by cases kind <;> simp_all
      exact walkValues_cons_eq_error (axis := 0) nofun fun v hv => walkValues_eq_error rfl hv

/-- A line's values that are accepted are read in token order (R232). -/
theorem walkValues_line_eq_ok (hkinds : kinds.head? ≠ some .parameterName) (h : walkValues n kinds values [] = .ok fields) :
    ReadsAs n (values.headD []) kinds values fields := by
  cases kinds with
  | nil =>
    cases values with
    | nil =>
      cases h
      exact readsAs_nil
    | cons tok toks => cases h
  | cons kind kinds =>
    cases values with
    | nil => simp [walkValues] at h
    | cons tok toks =>
      obtain rfl : kind = .integer := by cases kind <;> simp_all
      obtain ⟨more, rfl, hmore⟩ :=
        walkValues_cons_eq_ok (kind := .integer) (axis := 0) nofun (fun v hv => walkValues_eq_ok rfl hv) h
      exact hmore

end Walk

/-! ### The parsed line (R232, R234) -/

section Line

variable {n : Nat} {entry : MessageEntry} {keyword : List Byte} {values : List (List Byte)} {line : List Byte}
  {e : ProtocolError}

theorem lookupType_eq_none {keyword : List Byte} :
    lookupType keyword = none ↔ ∀ row ∈ lineShapes, row.1 ≠ keyword := by
  simp [lookupType, List.find?_eq_none, lineShapes_eq_messageTable]

/-- A line without a token is rejected as an unknown command. -/
theorem rejectedFor_nil : RejectedFor n [] e ↔ e = .unknownCommand := by
  simp [RejectedFor]

/-- So is a line whose keyword is none of the six (R234). -/
theorem rejectedFor_unknown (h : lookupType keyword = none) : RejectedFor n (keyword :: values) e ↔ e = .unknownCommand := by
  have hshapes := lookupType_eq_none.mp h
  constructor
  · rintro (⟨-, he⟩ | ⟨row, hrow, _, htoks, -⟩)
    · exact he
    · exact absurd (List.cons.inj htoks).1.symm (hshapes row hrow)
  · exact fun he => .inl ⟨.inr ⟨keyword, values, rfl, hshapes⟩, he⟩

/-- Behind a keyword of the table the values decide (R232). -/
theorem rejectedFor_known (h : lookupType keyword = some entry) :
    RejectedFor n (keyword :: values) e ↔ FirstFailure n (values.headD []) entry.kinds values e := by
  obtain ⟨hentry, rfl⟩ := lookupType_eq_some.mp h
  constructor
  · rintro (⟨hnone | ⟨keyword, rest, htoks, hshapes⟩, -⟩ | ⟨row, hrow, rest, htoks, hfail⟩)
    · cases hnone
    · obtain ⟨rfl, rfl⟩ := List.cons.inj htoks
      rw [lookupType_eq_none.mpr hshapes] at h
      cases h
    · rw [lineShapes_eq_messageTable] at hrow
      obtain ⟨entry', hentry', rfl⟩ := List.mem_map.mp hrow
      obtain ⟨hkeyword, rfl⟩ := List.cons.inj htoks
      have hsame : entry' = entry :=
        Option.some.inj ((lookupType_eq_some.mpr ⟨hentry', hkeyword.symm⟩).symm.trans h)
      rwa [hsame] at hfail
  · exact fun hfail => .inr ⟨_, mem_lineShapes hentry, values, rfl, hfail⟩

/-- The parser rejects a line exactly for the first failure of its tokens (R232). -/
theorem parseLine_eq_error : parseLine n line = .error e ↔ RejectedFor n (tokenize line) e := by
  unfold parseLine
  cases tokenize line with
  | nil => simp [rejectedFor_nil, @eq_comm _ e]
  | cons keyword values =>
    cases hlookup : lookupType keyword with
    | none => simp [rejectedFor_unknown hlookup, hlookup, @eq_comm _ e]
    | some entry =>
      have hkinds := kinds_head_ne_parameterName (lookupType_eq_some.mp hlookup).1
      rw [rejectedFor_known hlookup, ← walkValues_line_eq_error hkinds]
      cases hwalk : walkValues n entry.kinds values [] <;> simp [hlookup, hwalk]

/-- An accepted line is the keyword of its type and the values its type expects (R232, R234). -/
theorem parseLine_eq_ok {t : LineType} {fields : List Word} (h : parseLine n line = .ok (t, fields)) :
    ∃ entry ∈ messageTable, ∃ values, tokenize line = entry.keyword :: values ∧ t = entry.type ∧
      ReadsAs n (values.headD []) entry.kinds values fields := by
  unfold parseLine at h
  split at h
  · cases h
  · next keyword values htoks =>
    split at h
    · cases h
    · next entry hlookup =>
      obtain ⟨hentry, rfl⟩ := lookupType_eq_some.mp hlookup
      split at h
      · cases h
      · next fields' hwalk =>
        cases h
        exact ⟨entry, hentry, values, htoks, rfl, walkValues_line_eq_ok (kinds_head_ne_parameterName hentry) hwalk⟩

theorem decode_line_eq_error : decode n (.line line) = .error (.line e) ↔ parseLine n line = .error e := by
  simp only [decode, decodeLine]
  cases parseLine n line <;> simp

end Line

/-! ### The Message of an accepted line (R238, R241-R246) -/

/-- The four fields of the Message of a line, the unused ones 0 (R80). -/
def messageFields (fields : List Word) : Vector Word 4 :=
  #v[fieldAt fields 0, fieldAt fields 1, fieldAt fields 2, fieldAt fields 3]

section Message

variable {n : Nat} {entry : MessageEntry} {kinds : List ValueKind} {values : List (List Byte)} {fields : List Word}
  {s : State}

theorem messageFields_getElem (fields : List Word) (j : Fin 4) : (messageFields fields)[j] = fieldAt fields j := by
  match j with
  | 0 | 1 | 2 | 3 => rfl

theorem fieldAt_eq_zero {j : Nat} (h : fields.length ≤ j) : fieldAt fields j = 0 :=
  List.getD_eq_default _ _ h

/-- The fields that a line of a known type is read as are those of its Message (R238, R240). -/
theorem ReadsAs.acceptedAs (h : ReadsAs n (values.headD []) entry.kinds values fields) (hentry : entry ∈ messageTable) :
    AcceptedAs n (entry.keyword :: values) entry.type.enum (messageFields fields) := by
  refine ⟨_, mem_lineShapes hentry, values, rfl, rfl, h.values_length, fun j => ?_⟩
  rw [messageFields_getElem]
  exact ⟨h.taken j, fun hj => fieldAt_eq_zero (h.fields_length.trans_le hj)⟩

/-- A parameter name has been read behind an axis that is built (R236), and its enum is the second field (R79). -/
theorem ReadsAs.parameter (h : ReadsAs n (values.headD []) (.integer :: .parameterName :: kinds) values fields) :
    validAxisField n (fieldAt fields 0) = true ∧ (Param.ofEnum (fieldAt fields 1)).enum = fieldAt fields 1 := by
  match values, h.values_length with
  | axisTok :: name :: _, _ =>
    have haxis : parseInteger axisTok = some (fieldAt fields 0) := h.taken 0 _ _ rfl rfl
    obtain ⟨hname, axis, haxis', hvalid⟩ := h.taken 1 _ _ rfl rfl
    obtain rfl := Option.some.inj (haxis.symm.trans haxis')
    obtain ⟨p, -, hp⟩ := paramNames_getElem?_eq_some.mp hname
    rw [← hp, p.ofEnum_enum]
    exact ⟨validAxisField_iff.mpr hvalid, rfl⟩

/-- SET and GET present their Message when the axis is built (R236, R242, R243). -/
theorem execLineSet_valid {axis : Word} (hidle : s.parser.handlerBusy = false) (h : validAxisField s.numAxes axis = true)
    (p : Param) (v : Word) : execLineSet axis p v s = .next (s.accept .set #v[axis, p.enum, v, 0]) := by
  rw [execLineSet, whenHandlerIdle_idle hidle, if_pos h]

theorem execLineGet_valid {axis : Word} (hidle : s.parser.handlerBusy = false) (h : validAxisField s.numAxes axis = true)
    (p : Param) : execLineGet axis p s = .next (s.accept .get #v[axis, p.enum, 0, 0]) := by
  rw [execLineGet, whenHandlerIdle_idle hidle, if_pos h]

/-- A line whose values were read is accepted with exactly these fields (R241-R246). -/
theorem runLine_accepts (hidle : s.parser.handlerBusy = false) (hentry : entry ∈ messageTable)
    (h : ReadsAs s.numAxes (values.headD []) entry.kinds values fields) :
    runLine entry.type fields s = .next (s.accept entry.type (messageFields fields)) := by
  have hunused (j : Nat) (hj : entry.kinds.length ≤ j) : fieldAt fields j = 0 :=
    fieldAt_eq_zero (h.fields_length.trans_le hj)
  simp only [messageTable, List.mem_cons, List.not_mem_nil, or_false] at hentry
  rcases hentry with rfl | rfl | rfl | rfl | rfl | rfl <;> rw [messageFields, hunused 3 (by decide)]
  · -- GO
    rw [hunused 2 (by decide)]
    exact whenHandlerIdle_idle hidle
  · -- SET
    obtain ⟨hvalid, henum⟩ := h.parameter
    have hset := execLineSet_valid hidle hvalid (Param.ofEnum (fieldAt fields 1)) (fieldAt fields 2)
    rwa [henum] at hset
  · -- GET
    obtain ⟨hvalid, henum⟩ := h.parameter
    have hget := execLineGet_valid hidle hvalid (Param.ofEnum (fieldAt fields 1))
    rw [henum] at hget
    rwa [hunused 2 (by decide)]
  · -- HOME
    rw [hunused 1 (by decide), hunused 2 (by decide)]
    exact whenHandlerIdle_idle hidle
  · -- STATE
    rw [hunused 1 (by decide), hunused 2 (by decide)]
    exact whenHandlerIdle_idle hidle
  · -- ALIVE
    rw [hunused 0 (by decide), hunused 1 (by decide), hunused 2 (by decide)]
    exact whenHandlerIdle_idle hidle

end Message

/-! ### The answer to a line (R238-R240) -/

/-- `Accept` presents one Message and changes nothing else (R238, R262). -/
theorem State.accept_presents (s : State) (t : LineType) (fields : Vector Word 4) :
    Presents s (s.accept t fields) t.enum fields where
  parser    := rfl
  messages  := rfl
  params    := rfl
  registry  := rfl
  axes      := rfl
  store     := rfl
  inbox     := rfl
  steps     := rfl
  tx        := rfl
  responses := rfl

theorem errorText_eq_reasonText (e : ProtocolError) : errorText e = reasonText e := by cases e <;> rfl

/-- A failed parse sends one ERROR line with its reason and changes nothing else (R239, R300). -/
theorem State.protocolError_repliesOnly (s : State) (e : ProtocolError) :
    RepliesOnly s (s.protocolError e) (ascii "ERROR") (reasonText e) :=
  errorText_eq_reasonText e ▸ s.reply_repliesOnly .error (errorText e)

/-- A line with an axis check presents its Message if the axis is built, and gets BAD AXIS if it is not (R236). -/
theorem acceptOrBadAxis_answers {s : State} (hidle : s.parser.handlerBusy = false) (axis : Word) (t : LineType)
    (fields : Vector Word 4) :
    ∃ u, whenHandlerIdle s (if validAxisField s.numAxes axis then s.accept t fields else s.protocolError .badAxis) = .next u ∧
      (0 ≤ axis.toInt → axis.toInt < s.numAxes → Presents s u t.enum fields) ∧
      (axis.toInt < 0 ∨ (s.numAxes : Int) ≤ axis.toInt → RepliesOnly s u (ascii "ERROR") (ascii "BAD AXIS")) := by
  refine ⟨_, whenHandlerIdle_idle hidle, fun hlow hhigh => ?_, fun hout => ?_⟩
  · rw [if_pos (validAxisField_iff.mpr ⟨hlow, hhigh⟩)]
    exact s.accept_presents t fields
  · rw [validAxisField_eq_false.mpr hout, if_neg nofun]
    exact s.protocolError_repliesOnly .badAxis

theorem paramCode_eq_enum (p : Param) : paramCode p = p.enum := by cases p <;> rfl

/-- A terminator hands a line that is not empty to the parser, and empties the buffer (R212). -/
theorem execRx_processCommand {s : State} {b : Byte} (hidle : s.parser.handlerBusy = false)
    (hdisc : s.parser.discarding = false) (hb : b = 0x0D#8 ∨ b = 0x0A#8) (hbuf : s.parser.buf ≠ []) :
    execRx b s = processCommand s.parser.buf s.emptyBuffer := by
  rw [execRx_eq_terminator hidle (isTerminator_of_cr_or_lf hb)]
  simp [terminator, hdisc, hbuf]

/-! ### The obligations of the command parser -/

/-- Settles O28: the walk fails exactly for the first failure of the tokens, and a failed parse is one ERROR line. -/
theorem rejectedLineGetsItsReason : Obligations.RejectedLineGetsItsReason := by
  refine ⟨fun n line e => decode_line_eq_error.trans parseLine_eq_error, fun s b e hidle hdisc hb hbuf hdecode => ?_⟩
  exact ⟨_, (execRx_processCommand hidle hdisc hb hbuf).trans (processCommand_error (decode_line_eq_error.mp hdecode)),
    s.emptyBuffer.protocolError_repliesOnly e⟩

/-- Settles O29: the parser accepts the line, and its fields are the tokens' values, or rejects it for their first failure. -/
theorem everyLineGetsOneAnswer : Obligations.EveryLineGetsOneAnswer := by
  intro s b hidle hdisc hb hbuf
  have hrx := execRx_processCommand hidle hdisc hb hbuf
  cases hparse : parseLine s.numAxes s.parser.buf with
  | error e =>
    exact ⟨_, hrx.trans (processCommand_error hparse),
      .inr ⟨e, parseLine_eq_error.mp hparse, s.emptyBuffer.protocolError_repliesOnly e⟩⟩
  | ok parsed =>
    obtain ⟨t, fields⟩ := parsed
    obtain ⟨entry, hentry, values, htoks, rfl, hread⟩ := parseLine_eq_ok hparse
    have hline : processCommand s.parser.buf s.emptyBuffer =
        .next (s.emptyBuffer.accept entry.type (messageFields fields)) := by
      rw [processCommand, show s.emptyBuffer.numAxes = s.numAxes from rfl, hparse]
      exact runLine_accepts (s := s.emptyBuffer) hidle hentry hread
    exact ⟨_, hrx.trans hline,
      .inl ⟨_, _, htoks ▸ hread.acceptedAs hentry, s.emptyBuffer.accept_presents entry.type (messageFields fields)⟩⟩

/-- Settles O26: a line presents its Message, and SET and GET answer BAD AXIS exactly when the axis is not built. -/
theorem linesPresentTheirMessage : Obligations.LinesPresentTheirMessage := by
  intro s hidle
  refine ⟨fun axis target => ⟨_, whenHandlerIdle_idle hidle, s.accept_presents .go _⟩, fun axis p v => ?_, fun axis p => ?_,
    fun axis => ⟨_, whenHandlerIdle_idle hidle, s.accept_presents .home _⟩,
    fun axis => ⟨_, whenHandlerIdle_idle hidle, s.accept_presents .state _⟩,
    ⟨_, whenHandlerIdle_idle hidle, s.accept_presents .alive _⟩⟩
  · rw [paramCode_eq_enum]
    exact acceptOrBadAxis_answers hidle axis .set #v[axis, p.enum, v, 0]
  · rw [paramCode_eq_enum]
    exact acceptOrBadAxis_answers hidle axis .get #v[axis, p.enum, 0, 0]

end Sys2Proof.Machine

/-! Replies and the handler (46_reply_and_handler.md): the handler's two events, and the runs of the reference handler from a Message to its
reply. -/

namespace Sys2Proof

/-! ### What the setter and the getter of a parameter do (R271, R272) -/

/-- The values that the setter of a parameter takes (R141, R143, R145). -/
def Param.Takes (p : Param) (v : Word) : Prop :=
  match p with
  | .maxvel | .accel => 0 < v.toInt
  | .stopmode        => v = 0 ∨ v = 1

/-- A configuration with a parameter written. -/
def Param.set (p : Param) (c : AxisConfig) (v : Word) : AxisConfig :=
  match p with
  | .maxvel   => { c with maxVelocity := v }
  | .accel    => { c with acceleration := v }
  | .stopmode => { c with stopMode := if v = 0 then .hold else .disable }

/-- The value of a parameter as its getter answers it (R140, R142, R144). -/
def Param.get (p : Param) (c : AxisConfig) : Word :=
  match p with
  | .maxvel   => c.maxVelocity
  | .accel    => c.acceleration
  | .stopmode => if c.stopMode = .hold then 0 else 1

end Sys2Proof

namespace Sys2Proof.Machine

section Parameter

variable {x : BitVec 8} {s : State} {a : Axis} {p : Param} {v : Word}

theorem configOp_accepts {write : AxisConfig → Option AxisConfig} {c : AxisConfig} (ha : s.axes[x.toNat]? = some a)
    (hidle : a.state.busy = false) (hw : write a.config = some c) :
    configOp x write s = .next ((s.setAxis x.toNat { a with config := c }).respond true 0) :=
  axisOp_accepts ha (by simp [hidle, hw])

theorem exec_setterOf_accepts (ha : s.axes[x.toNat]? = some a)
    (h : ¬ (a.state = .moving ∨ a.state = .homingSeek ∨ a.state = .homingBackoff ∨ ¬ p.Takes v)) :
    exec (setterOf p x v) s = .next ((s.setAxis x.toNat { a with config := p.set a.config v }).respond true 0) := by
  obtain ⟨hidle, hv⟩ : a.state.busy = false ∧ p.Takes v := by
    simpa [Bool.eq_false_iff, RunState.busy_iff, and_assoc] using h
  cases p with
  | maxvel => exact show execSetMaxvel x v s = _ from configOp_accepts ha hidle (if_neg (not_le.mpr hv))
  | accel => exact show execSetAccel x v s = _ from configOp_accepts ha hidle (if_neg (not_le.mpr hv))
  | stopmode =>
    exact show execSetStopmode x v s = _ from configOp_accepts ha hidle (by rw [stopModeOfWord_of_legal hv]; rfl)

theorem exec_setterOf_refuses (ha : s.axes[x.toNat]? = some a)
    (h : a.state = .moving ∨ a.state = .homingSeek ∨ a.state = .homingBackoff ∨ ¬ p.Takes v) :
    exec (setterOf p x v) s = .next (s.respond false 0) := by
  obtain ⟨hmaxvel, haccel, hstopmode⟩ := settersWriteOneField
  cases p with
  | maxvel => exact ((hmaxvel s x v).2.2 a ha).2 h
  | accel => exact ((haccel s x v).2.2 a ha).2 h
  | stopmode => exact ((hstopmode s x v).2.2 a ha).2 h

theorem exec_getterOf (ha : s.axes[x.toNat]? = some a) (p : Param) :
    exec (getterOf p x) s = .next (s.respond true (p.get a.config)) := by
  cases p with
  | maxvel | accel => exact readOp_eq ha
  | stopmode =>
    have hvalue : Param.get .stopmode a.config = stopModeWord a.config.stopMode := by
      rw [Param.get]
      cases a.config.stopMode <;> rfl
    rw [hvalue]
    exact readOp_eq ha

end Parameter

/-! ### The handler's events (R263, R265) -/

section Events

variable {s : State} {m : Marker} {text : List Byte}

theorem execReply_busy (hbusy : s.parser.handlerBusy = true) : execReply m text s = .next (s.reply m text) := if_pos hbusy

theorem execReply_idle (hidle : s.parser.handlerBusy = false) : execReply m text s = .next s := by
  simp [execReply, hidle]

theorem execHandlerDone_busy (hbusy : s.parser.handlerBusy = true) :
    execHandlerDone s = .next { s with parser := { s.parser with handlerBusy := false } } := if_pos hbusy

theorem execHandlerDone_idle (hidle : s.parser.handlerBusy = false) : execHandlerDone s = .next s := by
  simp [execHandlerDone, hidle]

end Events

/-- Settles O30: both events test handlerBusy, and a REPLY sends one framed line. -/
theorem handlerEventsActOnlyWhileBusy : Obligations.HandlerEventsActOnlyWhileBusy := by
  refine ⟨fun s m text => ⟨fun hbusy => ⟨_, execReply_busy hbusy, ?_⟩, execReply_idle⟩,
    fun s => ⟨execHandlerDone_busy, execHandlerDone_idle⟩⟩
  cases m with
  | ack => exact s.reply_repliesOnly .ack text
  | error => exact s.reply_repliesOnly .error text

/-! ### Messages as the reference handler reads them (R38, R80, R236) -/

theorem Message.lineType_of_type {m : Message} {ty : LineType} (h : m.type = ty.enum) : m.lineType = some ty := by
  cases ty <;> simp [Message.lineType, h, LineType.enum]

/-- Every type the parser presents has a program (R38). -/
theorem Message.exists_lineType {m : Message} (h : m.type.toNat ≤ 5) : ∃ ty, m.lineType = some ty := by
  have hty : ∃ ty : LineType, m.type.toNat = ty.enum.toNat := by
    generalize m.type.toNat = n at h
    match n, h with
    | 0, _ => exact ⟨.go, rfl⟩
    | 1, _ => exact ⟨.set, rfl⟩
    | 2, _ => exact ⟨.get, rfl⟩
    | 3, _ => exact ⟨.home, rfl⟩
    | 4, _ => exact ⟨.state, rfl⟩
    | 5, _ => exact ⟨.alive, rfl⟩
  obtain ⟨ty, hty⟩ := hty
  exact ⟨ty, m.lineType_of_type (BitVec.eq_of_toNat_eq hty)⟩

theorem Message.field_of_fields {m : Message} {fields : Vector Word 4} (h : m.fields = fields) (j : Fin 4) :
    m.field j = fields[j] := by
  rw [Message.field, h]

/-- The parameter of a SET or GET Message (R79). -/
theorem Message.param_of_fields {m : Message} {p : Param} {w₀ w₂ w₃ : Word} (h : m.fields = #v[w₀, paramCode p, w₂, w₃]) :
    Param.ofEnum (m.field 1) = p := by
  have hfield : m.field 1 = paramCode p := m.field_of_fields h 1
  rw [hfield, paramCode_eq_enum, p.ofEnum_enum]

/-- An axis index up to 255 fits the axis field of an op (R74). -/
theorem Message.axis8_of_index {m : Message} {i : Nat} (h : m.field 0 = BitVec.ofNat 32 i) (hi : i ≤ 255) :
    m.axis8.toNat = i ∧ m.axisFits = true := by
  have hfield : (m.field 0).toNat = i := by
    rw [h, BitVec.toNat_ofNat]
    omega
  have hint : (m.field 0).toInt = i := by
    rw [BitVec.toInt_eq_toNat_of_lt (by omega), hfield]
  constructor
  · rw [Message.axis8, BitVec.extractLsb'_toNat, hfield, Nat.shiftRight_zero]
    omega
  · simp only [Message.axisFits, hint, Bool.and_eq_true, decide_eq_true_eq]
    omega

/-! ### A run of the reference handler -/

/-- What the OPs of a run of the reference handler make of the state `s` in which it began: the axes they leave, the responses, and the
handler's place. -/
def State.served (s : State) (axes : List Axis) (responses : List Response) (ph : HandlerPhase) : State :=
  { s with axes := axes, obs := { s.obs with responses := responses }, handler := ph }

/-- A Message of a line type has just been presented to the reference handler (R262). -/
structure State.Presented (s : State) (ty : LineType) : Prop where
  busy  : s.parser.handlerBusy = true
  start : s.handler = .idle
  type  : s.parser.msg.lineType = some ty

/-- `k` steps of the reference handler, all of them OPs, leave these axes and lead to this place in its program. -/
def State.Serves (s : State) (k : Nat) (axes : List Axis) (ph : HandlerPhase) : Prop :=
  ∃ responses, handlerRun k s = .next (s.served axes responses ph)

/-- `t` is the end of a run of the reference handler that began at `s`: one reply was sent, control is back, and the OPs left these axes
(R276). -/
structure State.Handled (s t : State) (axes : List Axis) (m : Marker) (text : List Byte) : Prop where
  parser   : t.parser = { s.parser with handlerBusy := false }
  handler  : t.handler = .idle
  axes     : t.axes = axes
  tx       : t.obs.tx = s.obs.tx ++ replyBytes m text
  messages : t.obs.messages = s.obs.messages
  registry : t.registry = s.registry
  store    : t.store = s.store

@[simp] theorem State.served_lastResponse (s : State) (axes : List Axis) (rs : List Response) (r : Response) (ph : HandlerPhase) :
    (s.served axes (rs ++ [r]) ph).lastResponse = r := by
  simp [State.lastResponse, State.served]

theorem isOp_of_opAxis {i : Instr} {x : BitVec 8} (h : opAxis i = some x) : isOp i = true := by
  cases i <;> simp [isOp, opAxis] at h ⊢

/-- An OP on an axis changes the axes at most, and answers once (R46, R71). -/
theorem exec_served {i : Instr} {x : BitVec 8} (hx : opAxis i = some x) (s : State) (axes : List Axis) (rs : List Response)
    (ph : HandlerPhase) : ∃ axes' r, exec i (s.served axes rs ph) = .next (s.served axes' (rs ++ [r]) ph) := by
  have hop := isOp_of_opAxis hx
  obtain ⟨t, ht⟩ := exec_op_next hop (s.served axes rs ph)
  cases exec_op_outcome hop ht with
  | failed => exact ⟨axes, _, ht⟩
  | axis v => exact ⟨_, _, ht⟩
  | setup hi | save v hi | restore v hi => simp [hi, opAxis] at hx

section Run

variable {k : Nat} {s t u : State} {axes axes' : List Axis} {ph : HandlerPhase} {ty : LineType} {r : Response} {m : Marker}
  {text : List Byte}

theorem handlerRun_succ (hrun : handlerRun k s = .next t) (hstep : handlerStep t = .next u) :
    handlerRun (k + 1) s = .next u := by
  induction k generalizing s with
  | zero =>
    obtain rfl : s = t := by simpa [handlerRun] using hrun
    simp [handlerRun, hstep]
  | succ k ih =>
    rw [handlerRun] at hrun ⊢
    split at hrun
    · exact ih hrun
    · cases hrun
    · cases hrun

theorem handlerStep_eq (hbusy : s.parser.handlerBusy = true) (hty : s.parser.msg.lineType = some ty)
    (hexec : exec (handlerAction s.handler ty s.parser.msg) s = .next u) :
    handlerStep s = .next { u with handler := handlerNext s.handler ty s.parser.msg u.lastResponse } := by
  simp [handlerStep, hbusy, hty, hexec]

theorem State.Presented.serves_zero (hs : s.Presented ty) : s.Serves 0 s.axes .idle :=
  ⟨s.obs.responses, by rw [← hs.start]; rfl⟩

/-- An OP step of the handler: it takes the newest response to the next place in its program. -/
theorem handlerRun_op {rs : List Response} (hs : s.Presented ty) (hrun : handlerRun k s = .next (s.served axes rs ph))
    (hexec : exec (handlerAction ph ty s.parser.msg) (s.served axes rs ph) = .next (s.served axes' (rs ++ [r]) ph)) :
    handlerRun (k + 1) s = .next (s.served axes' (rs ++ [r]) (handlerNext ph ty s.parser.msg r)) := by
  have hstep := handlerStep_eq (s := s.served axes rs ph) hs.busy hs.type hexec
  rw [State.served_lastResponse] at hstep
  exact handlerRun_succ hrun hstep

theorem State.Serves.op (h : s.Serves k axes ph) (hs : s.Presented ty)
    (hexec : ∀ rs, exec (handlerAction ph ty s.parser.msg) (s.served axes rs ph) = .next (s.served axes' (rs ++ [r]) ph)) :
    s.Serves (k + 1) axes' (handlerNext ph ty s.parser.msg r) := by
  obtain ⟨rs, hrun⟩ := h
  exact ⟨_, handlerRun_op hs hrun (hexec rs)⟩

/-- An OP step on an axis, whatever the OP and its answer. -/
theorem State.Serves.next {x : BitVec 8} (h : s.Serves k axes ph) (hs : s.Presented ty)
    (hx : opAxis (handlerAction ph ty s.parser.msg) = some x) :
    ∃ axes' r, s.Serves (k + 1) axes' (handlerNext ph ty s.parser.msg r) := by
  obtain ⟨rs, hrun⟩ := h
  obtain ⟨axes', r, hexec⟩ := exec_served hx s axes rs ph
  exact ⟨axes', r, _, handlerRun_op hs hrun hexec⟩

/-- The last two steps of the handler: REPLY and HANDLER_DONE. -/
theorem State.Serves.handled (h : s.Serves k axes ph) (hs : s.Presented ty)
    (haction : handlerAction ph ty s.parser.msg = .reply m text)
    (hnext : ∀ r, handlerNext ph ty s.parser.msg r = .finish) :
    ∃ t, handlerRun (k + 2) s = .next t ∧ s.Handled t axes m text := by
  obtain ⟨rs, hrun⟩ := h
  have hexec : exec (handlerAction ph ty s.parser.msg) (s.served axes rs ph) = .next ((s.served axes rs ph).reply m text) := by
    rw [haction]
    exact execReply_busy hs.busy
  have hreply : handlerStep (s.served axes rs ph) = .next { (s.served axes rs ph).reply m text with handler := .finish } := by
    rw [← hnext ((s.served axes rs ph).reply m text).lastResponse]
    exact handlerStep_eq hs.busy hs.type hexec
  have hdone := handlerStep_eq (s := { (s.served axes rs ph).reply m text with handler := .finish }) hs.busy hs.type
    (execHandlerDone_busy hs.busy)
  exact ⟨_, handlerRun_succ (handlerRun_succ hrun hreply) hdone, rfl, rfl, rfl, rfl, rfl, rfl, rfl⟩

theorem State.Serves.reply (h : s.Serves k axes (.sendReply m text)) (hs : s.Presented ty) :
    ∃ t, handlerRun (k + 2) s = .next t ∧ s.Handled t axes m text :=
  h.handled hs rfl fun _ => rfl

end Run

/-! ### Every run ends with one reply (R276) -/

/-- A bound on the steps the handler still takes from a place in its program (R270-R275). -/
def HandlerPhase.stepsLeft : HandlerPhase → Nat
  | .idle                   => 6
  | .stateGetState          => 5
  | .stateGetPos _          => 4
  | .stateCheckFinished _ _ => 3
  | .goCheckFinished        => 4
  | .goMoveAbs              => 3
  | .homeCheckFinished      => 4
  | .homeHome               => 3
  | .sendReply _ _          => 2
  | .finish                 => 1

/-- The handler has not replied yet, and a text that is ready is in the alphabet of the port (R260). -/
def HandlerPhase.BeforeReply : HandlerPhase → Prop
  | .finish           => False
  | .sendReply _ text => text.all printable = true
  | _                 => True

theorem stateReport_printable (code position : Word) : (stateReport code position).all printable = true := by
  rw [stateReport, List.all_append, List.all_cons, decInt_printable, decInt_printable]
  rfl

theorem badAxisText_printable : badAxisText.all printable = true := by decide

theorem rejectedText_printable : rejectedText.all printable = true := by decide

/-- The reply is still to come, in fewer than `n` steps of the run. -/
def HandlerPhase.Ahead (ph : HandlerPhase) (n : Nat) : Prop := ph.BeforeReply ∧ ph.stepsLeft < n

section Program

variable {n : Nat} {ty : LineType} {msg : Message} {m : Marker} {text : List Byte} {next : HandlerPhase}

theorem sendReply_ahead (htext : text.all printable = true) (hn : 2 < n) : (HandlerPhase.sendReply m text).Ahead n :=
  ⟨htext, hn⟩

theorem ackOrReject_ahead (r : Response) (htext : text.all printable = true) (hn : 2 < n) : (ackOrReject r text).Ahead n := by
  rw [ackOrReject]
  split
  · exact sendReply_ahead htext hn
  · exact sendReply_ahead rejectedText_printable hn

theorem afterAxisOk_ahead (r : Response) (hfits : msg.axisFits = true) (hnext : next.Ahead n) (hn : 2 < n) :
    (afterAxisOk msg r next).Ahead n := by
  rw [afterAxisOk, hfits, if_neg nofun]
  split
  · exact hnext
  · exact sendReply_ahead badAxisText_printable hn

theorem opAxis_setterOf (p : Param) (x : BitVec 8) (v : Word) : opAxis (setterOf p x v) = some x := by cases p <;> rfl

theorem opAxis_getterOf (p : Param) (x : BitVec 8) : opAxis (getterOf p x) = some x := by cases p <;> rfl

/-- The next step of the handler is its REPLY, or an OP on an axis that brings it nearer to the REPLY. -/
def HandlerPhase.Proceeds (ph : HandlerPhase) (ty : LineType) (msg : Message) : Prop :=
  (∃ m text, handlerAction ph ty msg = .reply m text ∧ text.all printable = true ∧ ∀ r, handlerNext ph ty msg r = .finish) ∨
  ((∃ x, opAxis (handlerAction ph ty msg) = some x) ∧ ∀ r, (handlerNext ph ty msg r).Ahead ph.stepsLeft)

/-- AxisOK issues its op, or the axis does not fit the field and the reply is BAD AXIS (R270, R273, R274). -/
theorem axisOk_proceeds (hfirst : firstAction ty msg = if msg.axisFits then .getAxis msg.axis8 else .reply .error badAxisText)
    (hafter : ∀ r, afterFirst ty msg r = afterAxisOk msg r next) (hnext : next.Ahead 6) : HandlerPhase.idle.Proceeds ty msg := by
  cases hfits : msg.axisFits with
  | false =>
    rw [hfits, if_neg nofun] at hfirst
    exact .inl ⟨.error, badAxisText, hfirst, badAxisText_printable, fun r => (hafter r).trans (by simp [afterAxisOk, hfits])⟩
  | true =>
    rw [hfits, if_pos rfl] at hfirst
    refine .inr ⟨⟨msg.axis8, congrArg opAxis hfirst⟩, fun r => ?_⟩
    rw [handlerNext, hafter]
    exact afterAxisOk_ahead r hfits hnext (by decide)

/-- The first step of each program (R270-R275). -/
theorem idle_proceeds (ty : LineType) (msg : Message) : HandlerPhase.idle.Proceeds ty msg := by
  cases ty with
  | go | home | state => exact axisOk_proceeds rfl (fun _ => rfl) ⟨trivial, by decide⟩
  | set => exact .inr ⟨⟨_, opAxis_setterOf _ _ _⟩, fun r => ackOrReject_ahead r rfl (by decide)⟩
  | get => exact .inr ⟨⟨_, opAxis_getterOf _ _⟩, fun r => sendReply_ahead (decInt_printable r.result) (by decide)⟩
  | alive => exact .inl ⟨.ack, [], rfl, rfl, fun _ => rfl⟩

/-- The programs have no loop: each OP before the REPLY leads on to it (R270-R274). -/
theorem HandlerPhase.BeforeReply.proceeds {ph : HandlerPhase} (h : ph.BeforeReply) (ty : LineType) (msg : Message) :
    ph.Proceeds ty msg := by
  cases ph with
  | idle => exact idle_proceeds ty msg
  | goCheckFinished | homeCheckFinished | stateGetState =>
    exact .inr ⟨⟨_, rfl⟩, fun _ => ⟨trivial, Nat.lt_succ_self _⟩⟩
  | goMoveAbs => exact .inr ⟨⟨_, rfl⟩, fun r => ackOrReject_ahead r (decNat_printable _) (by decide)⟩
  | homeHome => exact .inr ⟨⟨_, rfl⟩, fun r => ackOrReject_ahead r rfl (by decide)⟩
  | stateGetPos code =>
    refine .inr ⟨⟨_, rfl⟩, fun r => ?_⟩
    rw [handlerNext]
    split
    · exact ⟨trivial, Nat.lt_succ_self 3⟩
    · exact sendReply_ahead (stateReport_printable code r.result) (by decide : 2 < 4)
  | stateCheckFinished code position =>
    exact .inr ⟨⟨_, rfl⟩, fun _ => sendReply_ahead (stateReport_printable code position) (by decide : 2 < 3)⟩
  | sendReply m text => exact .inl ⟨m, text, rfl, h, fun _ => rfl⟩
  | finish => exact h.elim

/-- REPLY and HANDLER_DONE are still to come. -/
theorem HandlerPhase.BeforeReply.two_le_stepsLeft {ph : HandlerPhase} (h : ph.BeforeReply) : 2 ≤ ph.stepsLeft := by
  cases ph with
  | finish => exact h.elim
  | idle | goCheckFinished | goMoveAbs | homeCheckFinished | homeHome | stateGetState | stateGetPos | stateCheckFinished
  | sendReply => exact Nat.le_add_left 2 _

end Program

/-- The handler replies and gives control back within the steps it has left. -/
theorem State.Serves.repliesOnce {s : State} {ty : LineType} {k : Nat} {axes : List Axis} {ph : HandlerPhase}
    (h : s.Serves k axes ph) (hs : s.Presented ty) (hbefore : ph.BeforeReply) :
    ∃ j t axes' m text, j ≤ k + ph.stepsLeft ∧ handlerRun j s = .next t ∧ text.all printable = true ∧
      s.Handled t axes' m text := by
  induction hn : ph.stepsLeft using Nat.strong_induction_on generalizing k axes ph with
  | _ n ih =>
    subst hn
    rcases hbefore.proceeds ty s.parser.msg with ⟨m, text, haction, htext, hnext⟩ | ⟨⟨x, hx⟩, hnext⟩
    · obtain ⟨t, hrun, ht⟩ := h.handled hs haction hnext
      exact ⟨k + 2, t, axes, m, text, Nat.add_le_add_left hbefore.two_le_stepsLeft k, hrun, htext, ht⟩
    · obtain ⟨axes', r, hop⟩ := h.next hs hx
      obtain ⟨hbefore', hfewer⟩ := hnext r
      obtain ⟨j, t, axes'', m, text, hj, hhandled⟩ := ih _ hfewer hop hbefore' rfl
      exact ⟨j, t, axes'', m, text, by omega, hhandled⟩

/-- Settles O56: a run begins six steps at most from its end, and each of its steps before the REPLY is an OP. -/
theorem referenceHandlerRepliesOnce : Obligations.ReferenceHandlerRepliesOnce := by
  intro s hbusy hstart htype
  obtain ⟨ty, hty⟩ := s.parser.msg.exists_lineType htype
  have hs : s.Presented ty := ⟨hbusy, hstart, hty⟩
  obtain ⟨k, t, axes, m, text, hk, hrun, htext, h⟩ := hs.serves_zero.repliesOnce hs trivial
  exact ⟨k, t, m, text, hk.trans_eq (Nat.zero_add 6), hrun, h.parser, h.handler, htext, h.tx, h.messages, h.registry, h.store⟩

/-! ### The program of each line type (R270-R274) -/

/-- A Message of a line type that names the axis `a` has just been presented to the reference handler. -/
structure State.PresentedFor (s : State) (ty : LineType) (a : Axis) : Prop extends s.Presented ty where
  fits : s.parser.msg.axisFits = true
  axis : s.axes[s.parser.msg.axis8.toNat]? = some a

/-- `State.Serves` for a run whose OPs write no axis but the one of the Message, which they leave as `b`. -/
def State.ServesAxis (s : State) (k : Nat) (b : Axis) (ph : HandlerPhase) : Prop :=
  s.Serves k (s.axes.set s.parser.msg.axis8.toNat b) ph

/-- The axis with its finished latch consumed (R132). -/
def Axis.latchConsumed (a : Axis) : Axis :=
  if a.state = .finishedMoving ∨ a.state = .finishedHoming then { a with state := .ready } else a

theorem Axis.latchConsumed_of_rest {a : Axis} (h : a.state = .ready ∨ a.state = .finishedMoving ∨ a.state = .finishedHoming) :
    a.latchConsumed = { a with state := .ready } := by
  rw [Axis.latchConsumed]
  split
  · rfl
  · next hno =>
    rw [← h.resolve_right hno]

/-- CHECK_FINISHED consumes the latch of its axis and answers what it was (R132). -/
theorem execCheckFinished_eq {x : BitVec 8} {s : State} {a : Axis} (ha : s.axes[x.toNat]? = some a) :
    execCheckFinished x s = .next ((s.setAxis x.toNat a.latchConsumed).respond true (boolWord a.state.finished)) := by
  refine axisOp_accepts ha ?_
  simp only [Axis.latchConsumed, ← RunState.finished_iff]
  cases a.state.finished <;> rfl

section Replies

variable {s t : State} {axes : List Axis} {text : List Byte}

theorem State.Handled.axis {m : Marker} {i : Nat} {a b : Axis} (h : s.Handled t (s.axes.set i b) m text)
    (ha : s.axes[i]? = some a) : t.axes[i]? = some b := by
  rw [h.axes, List.getElem?_set_self (List.getElem?_eq_some_iff.mp ha).1]

theorem State.Handled.released {m : Marker} (h : s.Handled t axes m text) : t.parser.handlerBusy = false := by
  rw [h.parser]

theorem State.Handled.tx_ack (h : s.Handled t axes .ack []) : t.obs.tx = s.obs.tx ++ ascii "ACK" ++ [0x0D, 0x0A] := by
  rw [h.tx, List.append_assoc]
  rfl

theorem State.Handled.tx_rejected (h : s.Handled t axes .error rejectedText) :
    t.obs.tx = s.obs.tx ++ ascii "ERROR REJECTED" ++ [0x0D, 0x0A] := by
  rw [h.tx, List.append_assoc]
  rfl

theorem State.Handled.tx_ack_text (h : s.Handled t axes .ack text) (htext : text ≠ []) :
    t.obs.tx = s.obs.tx ++ ascii "ACK" ++ [0x20#8] ++ text ++ [0x0D, 0x0A] := by
  have hack : markerBytes .ack = ascii "ACK" := rfl
  simp [h.tx, replyBytes, htext, hack]

theorem State.Handled.tx_report {code position : Word} (h : s.Handled t axes .ack (stateReport code position)) :
    t.obs.tx = s.obs.tx ++ ascii "ACK" ++ [0x20#8] ++ decInt code ++ [0x20#8] ++ decInt position ++ [0x0D, 0x0A] := by
  rw [h.tx_ack_text (List.append_ne_nil_of_left_ne_nil (decInt_ne_nil code) _), stateReport]
  simp

end Replies

section AxisProgram

variable {s : State} {ty : LineType} {a b c : Axis} {i k : Nat} {ph next : HandlerPhase} {ok : Bool} {v w₁ w₂ w₃ : Word}

theorem State.presentedFor (hbusy : s.parser.handlerBusy = true) (hstart : s.handler = .idle)
    (htype : s.parser.msg.type = ty.enum) (hfields : s.parser.msg.fields = #v[BitVec.ofNat 32 i, w₁, w₂, w₃]) (hi : i ≤ 255)
    (ha : s.axes[i]? = some a) : s.PresentedFor ty a ∧ s.parser.msg.axis8.toNat = i := by
  obtain ⟨hindex, hfits⟩ := s.parser.msg.axis8_of_index (s.parser.msg.field_of_fields hfields 0) hi
  exact ⟨⟨⟨hbusy, hstart, s.parser.msg.lineType_of_type htype⟩, hfits, hindex ▸ ha⟩, hindex⟩

theorem State.PresentedFor.set_axis (hs : s.PresentedFor ty a) : s.axes.set s.parser.msg.axis8.toNat a = s.axes := by
  obtain ⟨hlt, rfl⟩ := List.getElem?_eq_some_iff.mp hs.axis
  exact List.set_getElem_self hlt

theorem State.PresentedFor.getElem?_set (hs : s.PresentedFor ty a) (b : Axis) :
    (s.axes.set s.parser.msg.axis8.toNat b)[s.parser.msg.axis8.toNat]? = some b :=
  List.getElem?_set_self (List.getElem?_eq_some_iff.mp hs.axis).1

theorem State.PresentedFor.serves_zero (hs : s.PresentedFor ty a) : s.ServesAxis 0 a .idle := by
  rw [State.ServesAxis, hs.set_axis]
  exact hs.toPresented.serves_zero

/-- An OP of the handler that writes its axis. -/
theorem State.ServesAxis.writes (h : s.ServesAxis k b ph) (hs : s.PresentedFor ty a)
    (hexec : ∀ axes rs, axes[s.parser.msg.axis8.toNat]? = some b →
      exec (handlerAction ph ty s.parser.msg) (s.served axes rs ph) =
        .next (((s.served axes rs ph).setAxis s.parser.msg.axis8.toNat c).respond true v)) :
    s.ServesAxis (k + 1) c (handlerNext ph ty s.parser.msg { ok := true, result := v }) := by
  have hop := h.op (r := { ok := true, result := v })
    (axes' := (s.axes.set s.parser.msg.axis8.toNat b).set s.parser.msg.axis8.toNat c) hs.toPresented
    fun rs => hexec _ rs (hs.getElem?_set b)
  rwa [List.set_set] at hop

/-- An OP of the handler that answers and writes nothing. -/
theorem State.ServesAxis.answers (h : s.ServesAxis k b ph) (hs : s.PresentedFor ty a)
    (hexec : ∀ axes rs, axes[s.parser.msg.axis8.toNat]? = some b →
      exec (handlerAction ph ty s.parser.msg) (s.served axes rs ph) = .next ((s.served axes rs ph).respond ok v)) :
    s.ServesAxis (k + 1) b (handlerNext ph ty s.parser.msg { ok := ok, result := v }) :=
  h.op hs.toPresented fun rs => hexec _ rs (hs.getElem?_set b)

/-- AxisOK holds for an axis that is built (R191). -/
theorem State.PresentedFor.axisOk (hs : s.PresentedFor ty a)
    (hfirst : firstAction ty s.parser.msg =
      if s.parser.msg.axisFits then .getAxis s.parser.msg.axis8 else .reply .error badAxisText)
    (hafter : ∀ r, afterFirst ty s.parser.msg r = afterAxisOk s.parser.msg r next) : s.ServesAxis 1 a next := by
  rw [hs.fits, if_pos rfl] at hfirst
  have hnext : handlerNext .idle ty s.parser.msg { ok := true, result := 0 } = next := by
    rw [handlerNext, hafter, afterAxisOk, hs.fits, if_neg nofun, if_pos rfl]
  rw [← hnext]
  refine hs.serves_zero.answers hs fun axes rs ha => ?_
  rw [handlerAction, hfirst]
  exact readOp_eq (s := s.served axes rs .idle) (read := fun _ => 0) ha

theorem State.ServesAxis.checkFinished (h : s.ServesAxis k b ph) (hs : s.PresentedFor ty a)
    (haction : handlerAction ph ty s.parser.msg = .checkFinished s.parser.msg.axis8)
    (hnext : ∀ r, handlerNext ph ty s.parser.msg r = next) : s.ServesAxis (k + 1) b.latchConsumed next := by
  rw [← hnext { ok := true, result := boolWord b.state.finished }]
  refine h.writes hs fun axes rs hb => ?_
  rw [haction]
  exact execCheckFinished_eq (s := s.served axes rs ph) hb

end AxisProgram

/-- Settles O57: once the latch is consumed the move may start, and the answer of MOVE_ABS is its duration. -/
theorem referenceHandlerRunsGo : Obligations.ReferenceHandlerRunsGo := by
  intro s i a target hbusy hstart htype hfields hi ha hrest hmay
  have htarget : s.parser.msg.field 1 = target := s.parser.msg.field_of_fields hfields 1
  obtain ⟨hs, rfl⟩ := State.presentedFor (ty := .go) hbusy hstart htype hfields hi ha
  have hready := (hs.axisOk rfl fun _ => rfl).checkFinished (next := .goMoveAbs) hs rfl fun _ => rfl
  rw [Axis.latchConsumed_of_rest hrest] at hready
  have hmove := Axis.startMove_eq_some_iff_mayMove.mpr ⟨hmay, rfl, rfl⟩
  have hmoving := hready.writes hs fun axes rs hb => by
    rw [handlerAction, htarget]
    exact axisOp_accepts (s := s.served axes rs .goMoveAbs) hb hmove
  obtain ⟨t, hrun, ht⟩ := hmoving.reply hs.toPresented
  refine ⟨t, _, hrun, ht.released, ht.axis ha, rfl, ?_, ht.tx_ack_text (decNat_ne_nil _)⟩
  have hduration := hmay.fits
  have hdistance : Axis.stepsTo { a with state := .ready } target.toInt ≤ s.durationTo { a with state := .ready } target.toInt :=
    le_max_right _ _
  exact Nat.mod_eq_of_lt (by omega)

/-- Settles O58: the setter of the parameter accepts or refuses the value, and the getter answers it. -/
theorem referenceHandlerSetsAndGets : Obligations.ReferenceHandlerSetsAndGets := by
  intro s i a p hbusy hstart hi ha
  refine ⟨fun v htype hfields => ?set, fun htype hfields => ?get⟩
  case set =>
    obtain ⟨hs, rfl⟩ := State.presentedFor (ty := .set) hbusy hstart htype hfields hi ha
    have hfirst : firstAction .set s.parser.msg = setterOf p s.parser.msg.axis8 v := by
      rw [firstAction, Message.param_of_fields hfields, s.parser.msg.field_of_fields hfields 2]
      rfl
    by_cases hrefuses : a.state = .moving ∨ a.state = .homingSeek ∨ a.state = .homingBackoff ∨ ¬ p.Takes v
    · have hrefused := hs.serves_zero.answers hs fun axes rs hb => by
        rw [handlerAction, hfirst]
        exact exec_setterOf_refuses (s := s.served axes rs .idle) hb hrefuses
      obtain ⟨t, hrun, ht⟩ := hrefused.reply hs.toPresented
      exact ⟨t, hrun, ht.released,
        fun hmove hseek hback hv => (hrefuses.elim hmove (·.elim hseek (·.elim hback (· hv)))).elim,
        fun _ => ⟨ht.tx_rejected, ht.axes.trans hs.set_axis⟩⟩
    · have hwritten := hs.serves_zero.writes hs fun axes rs hb => by
        rw [handlerAction, hfirst]
        exact exec_setterOf_accepts (s := s.served axes rs .idle) hb hrefuses
      obtain ⟨t, hrun, ht⟩ := hwritten.reply hs.toPresented
      exact ⟨t, hrun, ht.released, fun _ _ _ _ => ⟨ht.tx_ack, ht.axis ha⟩, fun h => absurd h hrefuses⟩
  case get =>
    obtain ⟨hs, -⟩ := State.presentedFor (ty := .get) hbusy hstart htype hfields hi ha
    have hfirst : firstAction .get s.parser.msg = getterOf p s.parser.msg.axis8 := by
      rw [firstAction, Message.param_of_fields hfields]
    have hread := hs.serves_zero.answers hs fun axes rs hb => by
      rw [handlerAction, hfirst]
      exact exec_getterOf (s := s.served axes rs .idle) hb p
    obtain ⟨t, hrun, ht⟩ := hread.reply hs.toPresented
    exact ⟨t, hrun, ht.released, ht.axes.trans hs.set_axis, ht.tx_ack_text (decInt_ne_nil _)⟩

/-- Codes 2 and 5 are those of a set latch (R26, R43). -/
theorem RunState.code_eq_iff {r : RunState} : r.code = 2 ∨ r.code = 5 ↔ r = .finishedMoving ∨ r = .finishedHoming := by
  cases r <;> decide

/-- Settles O59: code and position are read in three steps, and where the latch is set a fourth consumes it. -/
theorem referenceHandlerReportsState : Obligations.ReferenceHandlerReportsState := by
  intro s i a hbusy hstart htype hfields hi ha
  obtain ⟨hs, rfl⟩ := State.presentedFor (ty := .state) hbusy hstart htype hfields hi ha
  have hcode : s.ServesAxis 2 a (.stateGetPos a.state.code) :=
    (hs.axisOk rfl fun _ => rfl).answers hs fun axes rs hb => readOp_eq (s := s.served axes rs .stateGetState) hb
  have hposition := hcode.answers hs fun axes rs hb => readOp_eq (s := s.served axes rs (.stateGetPos a.state.code)) hb
  have hreport : ∃ t, handlerRun (if a.state = .finishedMoving ∨ a.state = .finishedHoming then 6 else 5) s = .next t ∧
      s.Handled t (s.axes.set s.parser.msg.axis8.toNat a.latchConsumed) .ack (stateReport a.state.code a.position) := by
    simp only [handlerNext, RunState.code_eq_iff] at hposition
    by_cases hlatch : a.state = .finishedMoving ∨ a.state = .finishedHoming
    · rw [if_pos hlatch] at hposition ⊢
      have hconsumed := hposition.checkFinished (next := .sendReply .ack _) hs rfl fun _ => rfl
      exact hconsumed.reply hs.toPresented
    · rw [if_neg hlatch] at hposition ⊢
      rw [Axis.latchConsumed, if_neg hlatch]
      exact hposition.reply hs.toPresented
  obtain ⟨t, hrun, ht⟩ := hreport
  refine ⟨t, hrun, ht.released, ?_, ht.axis ha⟩
  rw [ht.tx_report]
  cases a.state <;> rfl

/-- Settles O60: once the latch is consumed, HOME is accepted exactly with canHome = 1. -/
theorem referenceHandlerRunsHome : Obligations.ReferenceHandlerRunsHome := by
  intro s i a hbusy hstart htype hfields hi ha hrest hconf
  obtain ⟨hs, rfl⟩ := State.presentedFor (ty := .home) hbusy hstart htype hfields hi ha
  have hready := (hs.axisOk rfl fun _ => rfl).checkFinished (next := .homeHome) hs rfl fun _ => rfl
  rw [Axis.latchConsumed_of_rest hrest] at hready
  cases hhome : a.config.canHome with
  | true =>
    have hseek := (Axis.startHoming_eq_some (p := s.params) (a := { a with state := .ready })).mpr
      ⟨rfl, hhome, hconf, rfl, rfl⟩
    have hseeking := hready.writes hs fun axes rs hb => axisOp_accepts (s := s.served axes rs .homeHome) hb hseek
    obtain ⟨t, hrun, ht⟩ := hseeking.reply hs.toPresented
    exact ⟨t, _, hrun, ht.released, ht.axis ha, rfl, rfl, fun _ => ⟨rfl, rfl, ht.tx_ack⟩, nofun⟩
  | false =>
    have hrefused := hready.answers hs fun axes rs hb =>
      axisOp_fails (s := s.served axes rs .homeHome) hb fun c v hc => by
        simpa [hhome] using (Axis.startHoming_eq_some.mp hc).2.1
    obtain ⟨t, hrun, ht⟩ := hrefused.reply hs.toPresented
    exact ⟨t, _, hrun, ht.released, ht.axis ha, rfl, rfl, nofun, fun _ => ⟨rfl, ht.tx_rejected⟩⟩

end Sys2Proof.Machine

/-! Exceptions, reset and hazards (60_exceptions.md, 70_reset_and_hazards.md): the bound on homing, no instruction without a next state,
axes that do not see each other, power-on, boot and the states at rest. -/

namespace Sys2Proof.Machine

/-! ### Homing ends (R303) -/

/-- Homing has ended: in Error, or finished at position 0 (R166, R168). -/
def Axis.HomingEnded (a : Axis) : Prop := a.state = .error ∨ (a.state = .finishedHoming ∧ a.position = 0)

/-- Homing has at most `n` ticks left: what remains of a phase's budget, and for the seek the whole back-off budget `B` after it. -/
inductive Axis.HomingWithin (B : Word) (n : Nat) (a : Axis) : Prop where
  | seek (hs : a.state = .homingSeek) (hsteps : a.stepsRemaining ≠ 0) (hn : a.stepsRemaining.toNat + B.toNat ≤ n)
  | backoff (hs : a.state = .homingBackoff) (hsteps : a.stepsRemaining ≠ 0) (hn : a.stepsRemaining.toNat ≤ n)
  | ended (h : a.HomingEnded)

theorem toNat_pos_of_ne_zero {w : Word} (h : w ≠ 0) : 0 < w.toNat := by bv_omega

section Homing

variable {B : Word} {n : Nat} {a : Axis}

/-- The LIMIT level of an axis is no part of its budget. -/
theorem Axis.HomingWithin.limit (h : a.HomingWithin B n) (level : Bool) :
    Axis.HomingWithin B n { a with limit := level } := by
  cases h with
  | seek hs hsteps hn => exact .seek hs hsteps hn
  | backoff hs hsteps hn => exact .backoff hs hsteps hn
  | ended h => exact .ended h

theorem Axis.HomingWithin.ended_of_zero (h : a.HomingWithin B 0) : a.HomingEnded := by
  cases h with
  | seek _ hsteps hn | backoff _ hsteps hn =>
    have := toNat_pos_of_ne_zero hsteps
    omega
  | ended h => exact h

theorem Axis.HomingEnded.idle (h : a.HomingEnded) : a.state.busy = false := by
  rcases h with hs | ⟨hs, -⟩ <;> rw [hs] <;> rfl

/-- A homing pulse enters Error with the last of the budget, and otherwise uses one step of it up (R167-R169). -/
theorem Axis.homePulse_spends (hsteps : a.stepsRemaining ≠ 0) :
    a.homePulse.1.state = .error ∨
      (a.homePulse.1.state = a.state ∧ a.homePulse.1.stepsRemaining ≠ 0 ∧
        a.homePulse.1.stepsRemaining.toNat + 1 = a.stepsRemaining.toNat) := by
  by_cases hlast : a.stepsRemaining = 1
  · rw [Axis.homePulse_of_last hlast]
    exact .inl rfl
  · rw [Axis.homePulse_of_not_last hlast]
    have := toNat_pos_of_ne_zero hsteps
    have := toNat_sub_one hsteps
    exact .inr ⟨rfl, sub_ne_zero.mpr hlast, by dsimp only; omega⟩

/-- A tick brings the end of homing nearer: a pulse spends the budget, and a LIMIT edge ends the phase (R167, R168). -/
theorem Axis.HomingWithin.tick (hB : B ≠ 0) (h : a.HomingWithin B (n + 1)) : (a.tick B).1.HomingWithin B n := by
  cases h with
  | seek hs hsteps hn =>
    rcases Axis.tick_seek_cases B hs with ⟨h0, -⟩ | ⟨-, -, htick⟩ | ⟨-, -, htick⟩
    · exact absurd h0 hsteps
    · have := toNat_pos_of_ne_zero hsteps
      rw [htick]
      exact .backoff rfl hB (by dsimp only; omega)
    · rw [htick]
      rcases Axis.homePulse_spends hsteps with herror | ⟨hstate, hleft, hspent⟩
      · exact .ended (.inl herror)
      · exact .seek (hstate.trans hs) hleft (by omega)
  | backoff hs hsteps hn =>
    rcases Axis.tick_backoff_cases B hs with ⟨h0, -⟩ | ⟨-, -, htick⟩ | ⟨-, -, htick⟩
    · exact absurd h0 hsteps
    · rw [htick]
      exact .ended (.inr (by simp))
    · rw [htick]
      rcases Axis.homePulse_spends hsteps with herror | ⟨hstate, hleft, hspent⟩
      · exact .ended (.inl herror)
      · exact .backoff (hstate.trans hs) hleft (by omega)
  | ended h =>
    rw [Axis.tick_idle h.idle]
    exact .ended h

end Homing

/-- As many ticks as homing has left end it, whatever is driven on LIMIT[i] before each. -/
theorem limitTickRun_ends_homing {i : Nat} (levels : List Bool) {s : State} {a : Axis} (hconf : s.registry.configured = true)
    (ha : s.axes[i]? = some a) (hB : s.params.homeTickBudget ≠ 0)
    (h : a.HomingWithin s.params.homeTickBudget levels.length) :
    ∃ (t : State) (b : Axis), limitTickRun i levels s = .next t ∧ t.axes[i]? = some b ∧ b.HomingEnded := by
  induction levels generalizing s a with
  | nil => exact ⟨s, a, rfl, ha, h.ended_of_zero⟩
  | cons level levels ih =>
    have htick : execTick (s.driveLimit i level) = .next (s.driveLimit i level).ticked := execTick_ticked (by simpa using hconf)
    have haxis : (s.driveLimit i level).ticked.axes[i]? =
        some (Axis.tick s.params.homeTickBudget { a with limit := level }).1 := by simp [ha]
    rw [limitTickRun, htick]
    exact ih (by simpa using hconf) haxis (by simpa using hB) (by simpa using (h.limit level).tick hB)

/-- Settles O44: the seek that HOME starts has both budgets left. -/
theorem homingEndsWithinTwoBudgets : Obligations.HomingEndsWithinTwoBudgets := by
  intro s i a levels hconf ha hs hsteps hB hlong
  exact limitTickRun_ends_homing levels hconf ha hB (.seek hs (hsteps ▸ hB) (by rw [hsteps]; omega))

/-! ### Every instruction and every legal input answers (R301, R302) -/

theorem whenHandlerIdle_next (s t : State) : ∃ u, whenHandlerIdle s t = .next u := by
  unfold whenHandlerIdle
  split <;> exact ⟨_, rfl⟩

theorem execTick_next (s : State) : ∃ t, execTick s = .next t := by
  unfold execTick
  split <;> exact ⟨_, rfl⟩

theorem execReply_next (m : Marker) (text : List Byte) (s : State) : ∃ t, execReply m text s = .next t := by
  unfold execReply
  split <;> exact ⟨_, rfl⟩

theorem execHandlerDone_next (s : State) : ∃ t, execHandlerDone s = .next t := by
  unfold execHandlerDone
  split <;> exact ⟨_, rfl⟩

theorem terminator_next (s : State) : ∃ t, terminator s = .next t := by
  unfold terminator
  split_ifs
  · exact ⟨_, rfl⟩
  · exact ⟨_, rfl⟩
  · exact processCommand_next _ _

theorem printableByte_next (b : Byte) (s : State) : ∃ t, printableByte b s = .next t := by
  unfold printableByte
  split_ifs <;> exact ⟨_, rfl⟩

theorem execRx_next (b : Byte) (s : State) : ∃ t, execRx b s = .next t := by
  unfold execRx
  split_ifs
  · exact ⟨_, rfl⟩
  · exact terminator_next s
  · exact printableByte_next b s
  · exact ⟨_, rfl⟩

/-- Every instruction answers a next state in every state. -/
theorem exec_next (i : Instr) (s : State) : ∃ t, exec i s = .next t := by
  cases hop : isOp i with
  | true => exact exec_op_next hop s
  | false =>
    cases i with
    | lineGo | lineSet | lineGet | lineHome | lineState | lineAlive => exact whenHandlerIdle_next _ _
    | tick => exact execTick_next s
    | rx b => exact execRx_next b s
    | reply m text => exact execReply_next m text s
    | handlerDone => exact execHandlerDone_next s
    | moveAbs | moveRel | home | setPos | axisReset | getPos | busy | checkFinished | getState | getMaxvel | setMaxvel
    | getAccel | setAccel | getStopmode | setStopmode | getHomedir | getCanhome | setup | getAxis | saveSettings
    | restoreSettings => simp [isOp, opAxis] at hop

theorem handlerStep_next (s : State) : ∃ t, handlerStep s = .next t := by
  cases hbusy : s.parser.handlerBusy with
  | false => exact ⟨_, if_pos hbusy⟩
  | true =>
    cases hty : s.parser.msg.lineType with
    | none => exact ⟨s, by simp [handlerStep, hbusy, hty]⟩
    | some ty =>
      obtain ⟨u, hu⟩ := exec_next (handlerAction s.handler ty s.parser.msg) s
      exact ⟨_, handlerStep_eq hbusy hty hu⟩

/-- Inside the alphabets of the ports only a reserved op word is rejected (R73, R344). -/
theorem decodePort_of_legal {p : PortInput} (h : (Input.port p).legal = true) :
    (∃ i, decodePort p = .ok i) ∨ ∃ c, decodePort p = .error (.reservedOpcode c) := by
  cases p with
  | op w v =>
    simp only [decodePort, decodeOp]
    split
    · exact .inl ⟨_, rfl⟩
    · exact .inr ⟨_, rfl⟩
  | reply m text => exact .inl ⟨_, if_pos h⟩
  | tick | rx b | handlerDone => exact .inl ⟨_, rfl⟩

theorem deliver_next {i : Input} (h : i.legal = true) (s : State) : ∃ t, deliver i s = .next t := by
  cases i with
  | port p =>
    rcases decodePort_of_legal h with ⟨c, hc⟩ | ⟨c, hc⟩
    · rw [deliver_port_of_decode hc]
      exact exec_next c s
    · exact ⟨s.respond false 0, by rw [deliver, deliverPort, hc]; rfl⟩
  | limit k level => exact ⟨_, rfl⟩
  | powerOn => exact ⟨_, rfl⟩
  | handler => exact handlerStep_next s

/-- A step answers when every pending input is legal: the one it takes is one of them. -/
theorem step_next {s : State} (h : ∀ i ∈ s.inbox, i.legal = true) : ∃ t, step s = .next t := by
  unfold step stepInput
  split
  · exact ⟨s, rfl⟩
  · next i rest htake =>
    obtain ⟨pre, post, hinbox, -⟩ := takeInput_some htake
    exact deliver_next (h i (by simp [hinbox])) _

/-- Settles O51: every branch of every instruction answers, and a REPLY outside the alphabet, the one refusal, is not legal. -/
theorem nothingStopsTheBlock : Obligations.NothingStopsTheBlock := ⟨exec_next, fun _ => step_next⟩

/-! ### Axes are independent (R312) -/

/-- The addressed axis after an axis operation and its answer, as functions of that axis before it (R71, R74). -/
theorem axisOp_effect {x : BitVec 8} {f : Axis → Option (Axis × Word)} {s t : State} (h : axisOp x f s = .next t) :
    t.axes[x.toNat]? = ((s.axes[x.toNat]?.bind f).map Prod.fst).or s.axes[x.toNat]? ∧
      t.obs.responses = s.obs.responses ++
        [(s.axes[x.toNat]?.bind f).elim { ok := false, result := 0 } fun bv => { ok := true, result := bv.2 }] := by
  cases ha : s.axes[x.toNat]? with
  | none =>
    cases h.symm.trans (axisOp_absent ha)
    exact ⟨ha, rfl⟩
  | some a =>
    cases hf : f a with
    | none =>
      cases h.symm.trans (axisOp_refuses ha hf)
      exact ⟨by simp [ha, hf], by simp [hf]⟩
    | some bv =>
      have hlt := (List.getElem?_eq_some_iff.mp ha).1
      cases h.symm.trans (axisOp_accepts ha hf)
      exact ⟨by simp [hf, hlt], by simp [hf]⟩

/-- What a TICK makes of axis j, in one formula for both cases of R160. -/
theorem execTick_axis {s t : State} (h : execTick s = .next t) (j : Nat) :
    t.axes[j]? = if s.registry.configured then s.axes[j]?.map fun a => (a.tick s.params.homeTickBudget).1 else s.axes[j]? := by
  rcases execTick_cases h with ⟨hconf, rfl⟩ | ⟨hconf, rfl⟩ <;> simp [hconf]

/-- Settles O52: a tick of an axis takes the budget and that axis alone, and so does an axis operation. -/
theorem axesAreIndependent : Obligations.AxesAreIndependent := by
  rintro s t s' t' i j (rfl | ⟨x, hx, rfl⟩) hreg hpar hax hs ht
  · exact ⟨by rw [execTick_axis ht, execTick_axis hs, hreg, hpar, hax], fun h => absurd rfl h⟩
  · obtain ⟨f, hf⟩ := exec_eq_axisOp hx
    rw [hf] at hs ht
    rw [hreg, hpar] at ht
    obtain ⟨haxis, hanswer⟩ := axisOp_effect hs
    obtain ⟨haxis', hanswer'⟩ := axisOp_effect ht
    rw [hax] at haxis' hanswer'
    exact ⟨haxis'.trans haxis.symm, fun _ => ⟨_, hanswer, hanswer'⟩⟩

/-! ### A state at rest (R334) -/

/-- The four states at rest (R42). -/
theorem RunState.rest_of_not_busy {r : RunState} (h : r.busy = false) :
    r = .ready ∨ r = .finishedMoving ∨ r = .finishedHoming ∨ r = .error := by
  cases r <;> simp [RunState.busy] at h ⊢

section Rest

variable {axes : List Axis} {B : Word}

theorem tickAxes_eq_self (h : anyBusy axes = false) : tickAxes B axes = axes :=
  (List.map_congr_left fun a ha => by rw [Axis.tick_idle (anyBusy_eq_false_iff.mp h a ha), id]).trans (List.map_id axes)

theorem tickEvents_eq_nil (h : anyBusy axes = false) (k : Nat) : tickEvents B k axes = [] := by
  refine List.eq_nil_iff_forall_not_mem.mpr fun e he => ?_
  obtain ⟨i, a, -, ha, hpulse⟩ := exists_pulse_of_mem_tickEvents he
  have hidle := anyBusy_eq_false_iff.mp h a (List.mem_of_getElem? ha)
  simp [(Axis.tick_pulse hpulse).2] at hidle

end Rest

/-- A TICK changes nothing while no axis is busy (R160). -/
theorem execTick_of_rest {s : State} (h : anyBusy s.axes = false) : execTick s = .next s := by
  cases hconf : s.registry.configured with
  | false => exact execTick_unconfigured hconf
  | true => rw [execTick_configured hconf, tickAxes_eq_self h, tickEvents_eq_nil h, List.append_nil]

theorem step_of_empty_inbox {s : State} (h : s.inbox = []) : step s = .next s := by
  simp [step, stepInput, h, takeInput]

/-- Settles O55: a Quiescent state has no busy axis. -/
theorem quiescentStateKeepsStill : Obligations.QuiescentStateKeepsStill := by
  rintro s ⟨⟨hidle, -⟩, -⟩
  exact ⟨fun a ha => RunState.rest_of_not_busy (anyBusy_eq_false_iff.mp hidle a ha), execTick_of_rest hidle,
    step_of_empty_inbox⟩

/-! ### Power-on and boot (R330, R333) -/

/-- Settles O3: a power-on is enabled in every state, and its step is the block reset. -/
theorem powerOnResetsTheBlockOnly : Obligations.PowerOnResetsTheBlockOnly := by
  intro s rest hin
  have hstep : step s = .next (State.powerOn { s with inbox := rest }) := step_of_head hin (Bool.and_false _)
  refine ⟨_, hstep, rfl, rfl, rfl, rfl, rfl, rfl, rfl, List.length_map _, fun i a ha => ?_⟩
  have haxis : (State.powerOn { s with inbox := rest }).axes[i]? = some (Axis.resetOf a.build a.limit) := by simp [ha]
  exact ⟨_, haxis, rfl, rfl, rfl, rfl, rfl, rfl, rfl, rfl, rfl, rfl, rfl, rfl, rfl⟩

theorem anyBusy_resetOf (b : Build) : anyBusy (State.resetOf b).axes = false := by
  refine anyBusy_eq_false_iff.mpr fun a ha => ?_
  obtain ⟨c, -, rfl⟩ := List.mem_map.mp ha
  rfl

/-- Settles O4: the reset block is not configured, so SETUP accepts f, and it leaves the axes and the Interpreter at reset. -/
theorem setupBoots : Obligations.SetupBoots := by
  intro b f hf
  exact ⟨execSetup_accepts rfl hf, anyBusy_resetOf b, rfl, rfl, rfl⟩

end Sys2Proof.Machine
